-- ==== Sys2Proof/Word.lean ====
section
/-! DEFINITION. The word types of the block (00_scope.md R25): every multi-bit field of the spec is one of these. -/

namespace Sys2Proof

/-- A `u8` of R25: wire bytes, ring slots, ring indices, tick counts, flow-control counters. -/
abbrev Byte := BitVec 8

/-- A `u16` of R25: the accumulator step and the accumulator (10_state.md R42, R43). -/
abbrev U16 := BitVec 16

/-- The 64 bits of an IEEE 754 binary64 number (30_encoding.md R130). -/
abbrev F64 := BitVec 64

/-- A caller-memory address, `u_ADDR_W` with `ADDR_W` = 16 (00_scope.md R17). -/
abbrev Addr := BitVec 16

end Sys2Proof
end

