-- ==== Sys2Proof/Config.lean ====
section
/-! DEFINITION. The named parameters of 00_scope.md section 4 (R10 to R24). Each has the value the spec gives this
hardware; the parameters the spec leaves without a value are opaque constants. -/

namespace Sys2Proof

/-- R2: the spec's own identifier of the block. -/
def Config.blockName : String := "LASAUR-XPORT-PULSE"
/-- R2: the spec's own version of the block. -/
def Config.blockVersion : String := "LASAUR-XPORT-PULSE/doc-v7"

/-- R10: slots of the RX ring. -/
abbrev Config.rxCap : Nat := 255
/-- R11: slots of the TX ring. -/
abbrev Config.txCap : Nat := 128
/-- R12: payload bytes dequeued per acknowledgment. -/
abbrev Config.chunkSize : Nat := 16
/-- R13: the scale of `send_param`. -/
abbrev Config.paramScale : Nat := 1000
/-- R13: the bias of `send_param`, 2^27. -/
abbrev Config.paramBias : Nat := 134217728
/-- R13: bits of the biased integer. -/
abbrev Config.paramBits : Nat := 28
/-- R13: value bytes of a frame. -/
abbrev Config.paramGroups : Nat := 4
/-- R13: bits each value byte carries. -/
abbrev Config.paramGroupBits : Nat := 7
/-- R14: the least payload byte. -/
abbrev Config.printableMin : Nat := 32
/-- R17: width of a caller-memory address. -/
abbrev Config.addrW : Nat := 16
/-- R21: width of the `START_RASTER` length. -/
abbrev Config.lenW : Nat := 16
/-- R23: the largest pending-acknowledgment count. -/
abbrev Config.pendingAcksMax : Nat := 255

/-! R15: control codes. The source does not give their bytes; these are the spec's defaults.
DESIGN CHOICE to fix them at the defaults (log 10, unsafe). -/

/-- R15 CODE_STOP. -/
abbrev Config.codeStop : Byte := 0x01
/-- R15 CODE_RESUME. -/
abbrev Config.codeResume : Byte := 0x02
/-- R15 CODE_STATUS. -/
abbrev Config.codeStatus : Byte := 0x03
/-- R15 CODE_SUPERSTATUS. -/
abbrev Config.codeSuperstatus : Byte := 0x04
/-- R15 CODE_ACK, outbound only. -/
abbrev Config.codeAck : Byte := 0x05
/-- R15 CODE_STATUS_END, outbound only. -/
abbrev Config.codeStatusEnd : Byte := 0x06
/-- R15 CODE_RESET. -/
abbrev Config.codeReset : Byte := 0x07

/-- R16: the causes a stop reason identifies. -/
inductive StopReason where
  | ok
  | rxBufferOverflow
  | transmissionError
  | limitHit (i : Fin 6)
  | invalidMarker
  | invalidData
  | invalidCommand
  | invalidParameter
  | usartOverrun
deriving DecidableEq, Repr

/-- R16: the byte of a stop reason. `ST_OK` is the source's; the others are the spec's defaults.
DESIGN CHOICE to fix them at the defaults (log 11, unsafe). -/
def Config.stopCode : StopReason → Byte
  | .ok => 0x20
  | .rxBufferOverflow => 0x21
  | .transmissionError => 0x22
  | .limitHit i => 0x23 + BitVec.ofNat 8 i.val
  | .invalidMarker => 0x29
  | .invalidData => 0x2A
  | .invalidCommand => 0x2B
  | .invalidParameter => 0x2C
  | .usartOverrun => 0x2D

/-- R24: how a scaled value half way between two integers is rounded. -/
inductive RoundTies where
  | awayFromZero
deriving DecidableEq, Repr

/-- R24: the value this hardware takes. -/
def Config.roundTies : RoundTies := .awayFromZero

/-! R18, R19, R20, R22: OPEN parameters. No step reads them (log 13, safe). -/

/-- R19: what `UART_FRAME` names. -/
structure UartFrame where
  baud : Nat
  dataBits : Nat
  parity : Option Bool
  stopBits : Nat
deriving DecidableEq, Repr, Inhabited

/-- R18 TICK_PERIOD, in seconds: no value in the spec. -/
opaque Config.tickPeriod : Rat
/-- R19 UART_FRAME: no value in the spec. -/
opaque Config.uartFrame : UartFrame
/-- R20 MIN_PULSE_DURATION, the caller layer's floor: no value in the spec. -/
opaque Config.minPulseDuration : Nat
/-- R20 MIN_PULSE_PERIOD, the caller layer's floor: no value in the spec. -/
opaque Config.minPulsePeriod : Nat
/-- R22 OUT_ACTIVE_HIGH: no value in the spec. -/
opaque Config.outActiveHigh : Bool
/-- R22 IN_ACTIVE_HIGH: no value in the spec. -/
opaque Config.inActiveHigh : Bool

end Sys2Proof
end

