-- ==== Sys2Proof/Syntax.lean ====
section
/-! DEFINITION. The instructions of the block, one constructor per mnemonic of spec/opcode_table.json (RX_PAYLOAD's three
rows are one instruction), their encoding domains (30_encoding.md R110), and the inputs a step consumes. -/

namespace Sys2Proof

/-- The ring instance of an RB command (R131): 0 = RX ring, 1 = TX ring. -/
inductive RingId where
  | rx
  | tx
deriving DecidableEq, Repr

/-- An input line of `INPUT_SET` (R297, R52). -/
inductive InputLine where
  | door
  | chiller
  | limit (i : Fin 6)
deriving DecidableEq, Repr

/-- Who creates an outbound byte: the "produced by" column of R120. -/
inductive Producer where
  /-- the transmit-ready handler: acknowledgments -/
  | txi
  /-- `SEND_PARAM`: the bytes of a frame -/
  | sendParam
  /-- the host through `SEND_BYTE` -/
  | sendByte
deriving DecidableEq, Repr

/-- The encoding domains of R110. -/
inductive Format where
  /-- a mainline operation (R128, R129) -/
  | op
  /-- a ring-buffer controller command (R131) -/
  | rb
  /-- a handler activation or environment event (R132) -/
  | ev
  /-- an inbound byte, decoded by the receive classifier (R112 to R114) -/
  | wrx
  /-- an outbound byte and who produces it (R120) -/
  | wtx (p : Producer)
deriving DecidableEq, Repr

/-- The instructions: one constructor per mnemonic of the opcode table, in its order. -/
inductive Instr where
  | sendByte (b : Byte)
  | sendParam (tag : Byte) (value : F64)
  | readByte
  | bytesAvailable
  | idleReturn
  | setPulseDuration (d : Byte)
  | setPulseFrequency (f : U16)
  | startRaster (addr : Addr) (len : Addr)
  | setAir (v : Bool)
  | setAux1 (v : Bool)
  | setAux2 (v : Bool)
  | readDoor
  | readChiller
  | readLimit (i : Byte)
  | initDone
  | rbPush (r : RingId) (b : Byte)
  | rbPop (r : RingId)
  | rbIsEmpty (r : RingId)
  | rbIsFull (r : RingId)
  | rbLen (r : RingId)
  | evRx
  | evTxReady
  | evTick
  | rxArrive (b : Byte)
  | txDone
  | tick
  | inputSet (line : InputLine) (v : Bool)
  | memWrite (addr : Addr) (v : Byte)
  | rxReset
  | rxStop
  | rxResume
  | rxStatus
  | rxSuperstatus
  | rxInvalidMarker (l : Byte)
  | rxPayload (l : Byte)
  | txAck
  | txStatusEnd
  | txParamValue (g : BitVec 7)
  | txParamTag (tag : BitVec 7)
  | txRaw (b : Byte)
deriving DecidableEq, Repr

/-- One choice of host, environment or scheduler (R68, R280; the lines of R134): the bytes of one unit in its encoding
domain, or `RUN MAIN`, MAIN's continuation step, which has no opcode (95_test_vectors.md section 3). -/
inductive Input where
  | code (f : Format) (bytes : List Byte)
  | runMain
deriving DecidableEq, Repr

end Sys2Proof
end

