-- ==== Sys2Proof/WellFormed.lean ====
section
/-! DEFINITION. Which instructions the encodings admit: the operand of a byte class lies in its class (30_encoding.md R113,
R114, R120). Operands that the spec refuses when the operation RUNS (`READ_LIMIT` above 5, a tag with bit 7 set) are
admitted here: their meaning is the refusal. -/

namespace Sys2Proof

/-- The class INVALID_MARKER of R114: below `PRINTABLE_MIN`, none of the four inbound codes, and not the reset code, which
is taken before the duplicate check and never reaches the class. -/
def isInvalidMarker (l : Byte) : Bool :=
  decide (l.toNat < Config.printableMin) && l != Config.codeStop && l != Config.codeResume &&
    l != Config.codeStatus && l != Config.codeSuperstatus && l != Config.codeReset

/-- The class PAYLOAD of R113, R114, R116: at or above `PRINTABLE_MIN`. -/
def isPayload (l : Byte) : Bool := decide (Config.printableMin ≤ l.toNat)

/-- Whether the operands of an instruction lie in the classes its row names. -/
def Instr.wellFormed : Instr → Bool
  | .rxInvalidMarker l => isInvalidMarker l
  | .rxPayload l => isPayload l
  | .txRaw b => b != Config.codeStatusEnd
  | .sendByte _ | .sendParam _ _ | .readByte | .bytesAvailable | .idleReturn | .setPulseDuration _
  | .setPulseFrequency _ | .startRaster _ _ | .setAir _ | .setAux1 _ | .setAux2 _ | .readDoor | .readChiller
  | .readLimit _ | .initDone | .rbPush _ _ | .rbPop _ | .rbIsEmpty _ | .rbIsFull _ | .rbLen _ | .evRx | .evTxReady
  | .evTick | .rxArrive _ | .txDone | .tick | .inputSet _ _ | .memWrite _ _ | .rxReset | .rxStop | .rxResume
  | .rxStatus | .rxSuperstatus | .txAck | .txStatusEnd | .txParamValue _ | .txParamTag _ => true

end Sys2Proof
end

