-- ==== Sys2Proof/Decode.lean ====
section
/-! DEFINITION. The decoder of each encoding domain (30_encoding.md R110 to R133), total on any bytes, then the encoder.
The spec says operands travel beside the selector and gives no byte layout (R128): the selector byte, then the operands in
the order of R129, R131, R132, each least significant byte first, is a DESIGN CHOICE (log 2, safe). -/

namespace Sys2Proof

/-- Why bytes are not an instruction (R133): the names of R302's two decoding refusals. -/
inductive DecodeError where
  | unknownSelector
  | operandType
deriving DecidableEq, Repr

/-- What decoding answers: an instruction and the bytes after it, or a rejection by name. -/
inductive Decoded where
  | instr (i : Instr) (rest : List Byte)
  | reject (e : DecodeError)
deriving DecidableEq, Repr

/-- A `u8` operand. -/
def takeByte (bs : List Byte) (k : Byte → List Byte → Decoded) : Decoded :=
  match bs with
  | b :: rest => k b rest
  | [] => .reject .operandType

/-- A `u16` operand, least significant byte first. -/
def takeU16 (bs : List Byte) (k : U16 → List Byte → Decoded) : Decoded :=
  match bs with
  | b0 :: b1 :: rest => k (BitVec.ofNat 16 (b0.toNat + 2 ^ 8 * b1.toNat)) rest
  | _ => .reject .operandType

/-- A binary64 operand, least significant byte first. -/
def takeF64 (bs : List Byte) (k : F64 → List Byte → Decoded) : Decoded :=
  match bs with
  | b0 :: b1 :: b2 :: b3 :: b4 :: b5 :: b6 :: b7 :: rest =>
    k (BitVec.ofNat 64 (b0.toNat + 2 ^ 8 * b1.toNat + 2 ^ 16 * b2.toNat + 2 ^ 24 * b3.toNat + 2 ^ 32 * b4.toNat +
      2 ^ 40 * b5.toNat + 2 ^ 48 * b6.toNat + 2 ^ 56 * b7.toNat)) rest
  | _ => .reject .operandType

/-- A Boolean operand: 0 or 1, any other byte is out of its type (R133). -/
def takeBool (bs : List Byte) (k : Bool → List Byte → Decoded) : Decoded :=
  takeByte bs fun b rest =>
    if b = 0 then k false rest else if b = 1 then k true rest else .reject .operandType

/-- A ring instance: 0 or 1; `r > 1` is refused (R131, R133). -/
def takeRing (bs : List Byte) (k : RingId → List Byte → Decoded) : Decoded :=
  takeByte bs fun b rest =>
    if b = 0 then k .rx rest else if b = 1 then k .tx rest else .reject .operandType

/-- An input line: door 0, chiller 1, limit[i] 2 + i (the numbering is part of log 2). -/
def takeLine (bs : List Byte) (k : InputLine → List Byte → Decoded) : Decoded :=
  takeByte bs fun b rest =>
    match b.toNat with
    | 0 => k .door rest
    | 1 => k .chiller rest
    | 2 => k (.limit 0) rest
    | 3 => k (.limit 1) rest
    | 4 => k (.limit 2) rest
    | 5 => k (.limit 3) rest
    | 6 => k (.limit 4) rest
    | 7 => k (.limit 5) rest
    | _ => .reject .operandType

/-- R129: the mainline operations. -/
def decodeOp : List Byte → Decoded
  | [] => .reject .unknownSelector
  | op :: bs =>
    match op.toNat with
    | 0x01 => takeByte bs fun b rest => .instr (.sendByte b) rest
    | 0x02 => takeByte bs fun tag more => takeF64 more fun value rest => .instr (.sendParam tag value) rest
    | 0x03 => .instr .readByte bs
    | 0x04 => .instr .bytesAvailable bs
    | 0x0F => .instr .idleReturn bs
    | 0x10 => takeByte bs fun d rest => .instr (.setPulseDuration d) rest
    | 0x11 => takeU16 bs fun f rest => .instr (.setPulseFrequency f) rest
    | 0x12 => takeU16 bs fun addr more => takeU16 more fun len rest => .instr (.startRaster addr len) rest
    | 0x20 => takeBool bs fun v rest => .instr (.setAir v) rest
    | 0x21 => takeBool bs fun v rest => .instr (.setAux1 v) rest
    | 0x22 => takeBool bs fun v rest => .instr (.setAux2 v) rest
    | 0x28 => .instr .readDoor bs
    | 0x29 => .instr .readChiller bs
    | 0x2A => takeByte bs fun i rest => .instr (.readLimit i) rest
    | 0x30 => .instr .initDone bs
    | _ => .reject .unknownSelector

/-- R131: the ring-buffer controller's commands. -/
def decodeRb : List Byte → Decoded
  | [] => .reject .unknownSelector
  | op :: bs =>
    match op.toNat with
    | 0x40 => takeRing bs fun r more => takeByte more fun b rest => .instr (.rbPush r b) rest
    | 0x41 => takeRing bs fun r rest => .instr (.rbPop r) rest
    | 0x42 => takeRing bs fun r rest => .instr (.rbIsEmpty r) rest
    | 0x43 => takeRing bs fun r rest => .instr (.rbIsFull r) rest
    | 0x44 => takeRing bs fun r rest => .instr (.rbLen r) rest
    | _ => .reject .unknownSelector

/-- R132: handler activations and environment events. -/
def decodeEv : List Byte → Decoded
  | [] => .reject .unknownSelector
  | ev :: bs =>
    match ev.toNat with
    | 0x80 => .instr .evRx bs
    | 0x81 => .instr .evTxReady bs
    | 0x82 => .instr .evTick bs
    | 0x90 => takeByte bs fun b rest => .instr (.rxArrive b) rest
    | 0x91 => .instr .txDone bs
    | 0x92 => .instr .tick bs
    | 0x93 => takeLine bs fun line more => takeBool more fun v rest => .instr (.inputSet line v) rest
    | 0x94 => takeU16 bs fun addr more => takeByte more fun v rest => .instr (.memWrite addr v) rest
    | _ => .reject .unknownSelector

/-- R113: the class of a logical byte, in the rule's priority order. -/
def decodeLogical (l : Byte) : Instr :=
  if l = Config.codeStop then .rxStop
  else if l = Config.codeResume then .rxResume
  else if l = Config.codeStatus then .rxStatus
  else if l = Config.codeSuperstatus then .rxSuperstatus
  else if l.toNat < Config.printableMin then .rxInvalidMarker l
  else .rxPayload l

/-- R112, R114: an inbound byte; the reset code is checked first. -/
def decodeWrx : List Byte → Decoded
  | [] => .reject .unknownSelector
  | b :: rest => if b = Config.codeReset then .instr .rxReset rest else .instr (decodeLogical b) rest

/-- R120: an outbound byte. Its class depends on who produces it as well as on its value. -/
def decodeWtx (p : Producer) : List Byte → Decoded
  | [] => .reject .unknownSelector
  | b :: rest =>
    match p with
    | .txi => if b = Config.codeAck then .instr .txAck rest else .reject .unknownSelector
    | .sendParam =>
      if 2 ^ 7 ≤ b.toNat then .instr (.txParamValue (BitVec.ofNat 7 b.toNat)) rest
      else .instr (.txParamTag (BitVec.ofNat 7 b.toNat)) rest
    | .sendByte => if b = Config.codeStatusEnd then .instr .txStatusEnd rest else .instr (.txRaw b) rest

/-- The decoder: one per domain of R110. -/
def decode (f : Format) (bs : List Byte) : Decoded :=
  match f with
  | .op => decodeOp bs
  | .rb => decodeRb bs
  | .ev => decodeEv bs
  | .wrx => decodeWrx bs
  | .wtx p => decodeWtx p bs

/-! ## The encoder -/

/-- The domain of an instruction: the `format` of its row. -/
def formatOf : Instr → Format
  | .sendByte _ | .sendParam _ _ | .readByte | .bytesAvailable | .idleReturn | .setPulseDuration _
  | .setPulseFrequency _ | .startRaster _ _ | .setAir _ | .setAux1 _ | .setAux2 _ | .readDoor | .readChiller
  | .readLimit _ | .initDone => .op
  | .rbPush _ _ | .rbPop _ | .rbIsEmpty _ | .rbIsFull _ | .rbLen _ => .rb
  | .evRx | .evTxReady | .evTick | .rxArrive _ | .txDone | .tick | .inputSet _ _ | .memWrite _ _ => .ev
  | .rxReset | .rxStop | .rxResume | .rxStatus | .rxSuperstatus | .rxInvalidMarker _ | .rxPayload _ => .wrx
  | .txAck => .wtx .txi
  | .txStatusEnd | .txRaw _ => .wtx .sendByte
  | .txParamValue _ | .txParamTag _ => .wtx .sendParam

/-- A Boolean operand's byte. -/
def boolByte (v : Bool) : Byte := if v then 1 else 0

/-- A ring instance's byte (R131). -/
def ringByte : RingId → Byte
  | .rx => 0
  | .tx => 1

/-- An input line's byte (log 2). -/
def lineByte : InputLine → Byte
  | .door => 0
  | .chiller => 1
  | .limit i => BitVec.ofNat 8 (2 + i.val)

/-- The two bytes of a `u16`, least significant first. -/
def u16Bytes (v : U16) : List Byte := [BitVec.ofNat 8 v.toNat, BitVec.ofNat 8 (v.toNat / 2 ^ 8)]

/-- The eight bytes of a binary64, least significant first. -/
def f64Bytes (v : F64) : List Byte :=
  [BitVec.ofNat 8 v.toNat, BitVec.ofNat 8 (v.toNat / 2 ^ 8), BitVec.ofNat 8 (v.toNat / 2 ^ 16),
    BitVec.ofNat 8 (v.toNat / 2 ^ 24), BitVec.ofNat 8 (v.toNat / 2 ^ 32), BitVec.ofNat 8 (v.toNat / 2 ^ 40),
    BitVec.ofNat 8 (v.toNat / 2 ^ 48), BitVec.ofNat 8 (v.toNat / 2 ^ 56)]

/-- R124: the value byte `1 ++ g`, bit 7 set above seven bits of the value. -/
def paramValueByte (g : BitVec 7) : Byte := BitVec.ofNat 8 (2 ^ 7 + g.toNat)

/-- R125: the tag byte `0 ++ tag`, bit 7 clear. -/
def paramTagByte (tag : BitVec 7) : Byte := BitVec.ofNat 8 tag.toNat

/-- The bytes of an instruction: the selector, event code or byte class of R114, R120, R129, R131, R132, then its
operands. -/
def encode : Instr → List Byte
  | .sendByte b => [0x01, b]
  | .sendParam tag value => 0x02 :: tag :: f64Bytes value
  | .readByte => [0x03]
  | .bytesAvailable => [0x04]
  | .idleReturn => [0x0F]
  | .setPulseDuration d => [0x10, d]
  | .setPulseFrequency f => 0x11 :: u16Bytes f
  | .startRaster addr len => 0x12 :: (u16Bytes addr ++ u16Bytes len)
  | .setAir v => [0x20, boolByte v]
  | .setAux1 v => [0x21, boolByte v]
  | .setAux2 v => [0x22, boolByte v]
  | .readDoor => [0x28]
  | .readChiller => [0x29]
  | .readLimit i => [0x2A, i]
  | .initDone => [0x30]
  | .rbPush r b => [0x40, ringByte r, b]
  | .rbPop r => [0x41, ringByte r]
  | .rbIsEmpty r => [0x42, ringByte r]
  | .rbIsFull r => [0x43, ringByte r]
  | .rbLen r => [0x44, ringByte r]
  | .evRx => [0x80]
  | .evTxReady => [0x81]
  | .evTick => [0x82]
  | .rxArrive b => [0x90, b]
  | .txDone => [0x91]
  | .tick => [0x92]
  | .inputSet line v => [0x93, lineByte line, boolByte v]
  | .memWrite addr v => 0x94 :: (u16Bytes addr ++ [v])
  | .rxReset => [Config.codeReset]
  | .rxStop => [Config.codeStop]
  | .rxResume => [Config.codeResume]
  | .rxStatus => [Config.codeStatus]
  | .rxSuperstatus => [Config.codeSuperstatus]
  | .rxInvalidMarker l => [l]
  | .rxPayload l => [l]
  | .txAck => [Config.codeAck]
  | .txStatusEnd => [Config.codeStatusEnd]
  | .txParamValue g => [paramValueByte g]
  | .txParamTag tag => [paramTagByte tag]
  | .txRaw b => [b]

/-- The input that issues an instruction in its own domain. -/
def Instr.input (i : Instr) : Input := .code (formatOf i) (encode i)

/-! ## Bare words of the opcode table -/

/-- Whether a decoding succeeded. -/
def Decoded.isInstr : Decoded → Bool
  | .instr _ _ => true
  | .reject _ => false

/-- Byte `k` of the instruction whose table bits are `w`; every bit at or above `nbits` is 0. -/
def tableByte (nbits w k : Nat) : Byte := BitVec.ofNat 8 (w % 2 ^ nbits / 256 ^ k)

/-- The bytes of a table word, up to the longest instruction (`SEND_PARAM`, ten bytes). -/
def tableBytes (nbits w : Nat) : List Byte :=
  [tableByte nbits w 0, tableByte nbits w 1, tableByte nbits w 2, tableByte nbits w 3, tableByte nbits w 4,
    tableByte nbits w 5, tableByte nbits w 6, tableByte nbits w 7, tableByte nbits w 8, tableByte nbits w 9]

/-- The domain a bare byte is read in. The table's rows of different formats share bytes (0x01 is SEND_BYTE and RX_STOP)
and a word does not say its format: operations, ring commands and events first, then the two outbound-only codes, then the
inbound byte classes. DESIGN CHOICE (log 3, safe). -/
def tableFormat (bs : List Byte) : Format :=
  if (decodeOp bs).isInstr then .op
  else if (decodeRb bs).isInstr then .rb
  else if (decodeEv bs).isInstr then .ev
  else if (decodeWtx .txi bs).isInstr then .wtx .txi
  else if bs.head? = some Config.codeStatusEnd then .wtx .sendByte
  else .wrx

/-- The input a bare table word stands for. -/
def tableInput (nbits w : Nat) : Input := .code (tableFormat (tableBytes nbits w)) (tableBytes nbits w)

/-- The instruction the decoder reads from a bare table word. -/
def decodeTableWord (nbits w : Nat) : Option Instr :=
  match decode (tableFormat (tableBytes nbits w)) (tableBytes nbits w) with
  | .instr i _ => some i
  | .reject _ => none

end Sys2Proof
end

