-- ==== Sys2Proof/Machine/State.lean ====
section
/-! DEFINITION. The state of the block (10_state.md R30) as plain data, the named reasons a step can stop, and the state
after reset (R66). Field names follow the spec; `out`, `in` and `end` are Lean words and are written `outp`, `inp` and
`sentinel`. -/

namespace Sys2Proof.Machine

/-- R30 `Ring(C)`: `{head : u8, tail : u8, slot : u8[C]}`. -/
structure RingBuf (C : Nat) where
  head : Byte
  tail : Byte
  slot : Vector Byte C
deriving DecidableEq, Repr

/-- R37, R38: the duplicate detector. -/
structure DupDetector where
  expectFirst : Bool
  prev : Byte
deriving DecidableEq, Repr

/-- R39, R40: the flow-control counters. -/
structure FlowControl where
  consumed : Byte
  pendingAcks : Byte
deriving DecidableEq, Repr

/-- R42 to R47: the pulse engine; `sentinel` is `pe.end`. -/
structure PulseEngine where
  frequency : U16
  timer : U16
  duration : Byte
  remaining : Byte
  cursor : Addr
  sentinel : Addr
deriving DecidableEq, Repr

/-- R49 to R51: the assist output lines, true = on. -/
structure OutputLines where
  air : Bool
  aux1 : Bool
  aux2 : Bool
deriving DecidableEq, Repr

/-- R52: the input lines: door open, chiller off, the six limit switches. -/
structure InputLines where
  door : Bool
  chiller : Bool
  limit : Vector Bool 6
deriving DecidableEq, Repr

/-- R53 to R55: the UART. -/
structure Uart where
  rxFull : Bool
  rxData : Byte
  rxOvr : Bool
  txFree : Bool
deriving DecidableEq, Repr

/-- R56 `mode`: `SENDING(q)` holds the nonempty list `b :: rest`. -/
inductive Mode where
  | idle
  | sending (b : Byte) (rest : List Byte)
  | reading
deriving DecidableEq, Repr

/-- R56 `nested`: the slot of an operation run inside `on_idle`. -/
inductive Nested where
  | idle
  | sending (b : Byte) (rest : List Byte)
deriving DecidableEq, Repr

/-- R56: the mainline sequencer. -/
structure MainState where
  mode : Mode
  inIdle : Bool
  nested : Nested
deriving DecidableEq, Repr

/-- R190: the slot an operation runs in. -/
inductive SlotId where
  | top
  | nested
deriving DecidableEq, Repr

/-- R300: the model faults the spec records in `faults`. -/
inductive FaultReason where
  | paramOutOfRange
  | ackCounterOverflow
  | rasterBufferMutated
  | tickLost
deriving DecidableEq, Repr

/-- R302: the reasons of the spec's `refuse(r)`. -/
inductive RefuseReason where
  | unknownSelector
  | operandType
  | issueWhileBusy
  | tagNot7Bit
  | rasterRange
  | badLimitIndex
  | idleReturnOutsideIdle
deriving DecidableEq, Repr

/-- R60 `CTRL(k)`: the control-code handlers. -/
inductive CtrlKind where
  | stop
  | resume
  | status
  | superstatus
deriving DecidableEq, Repr

/-- R60 `CALL(...)`: the mainline callbacks. -/
inductive Callback where
  | underrun
  | idle
deriving DecidableEq, Repr

/-- R60 `RET(v)`: a byte (`READ_BYTE`) or a Boolean (R129, column result). -/
inductive RetVal where
  | byte (b : Byte)
  | bool (v : Bool)
deriving DecidableEq, Repr

/-- R60: the events of the output trace. -/
inductive Event where
  | tx (b : Byte)
  | laser (l : Bool)
  | stopReq (code : Byte)
  | ctrl (k : CtrlKind)
  | call (c : Callback)
  | ret (v : RetVal)
deriving DecidableEq, Repr

/-- R131, column result: what a ring-buffer controller command answers. -/
inductive RingResult where
  | ok
  | full
  | item (b : Byte)
  | none
  | flag (v : Bool)
  | len (n : Byte)
deriving DecidableEq, Repr

/-- R69: caller memory as (address, byte) pairs in canonical form (`Memory.wf`, Machine/Memory.lean). -/
abbrev Memory := List Host.Cell

/-- R30: the state of the block, then the model's own fields `script`, `rbResult`, `refuseReason` and `bench`
(logs 1, 5, 6, 4). -/
structure State where
  /-- R31 to R33 -/
  rx : RingBuf Config.rxCap
  /-- R34 to R36 -/
  tx : RingBuf Config.txCap
  /-- R37, R38 -/
  dup : DupDetector
  /-- R39, R40 -/
  fc : FlowControl
  /-- R41 -/
  txie : Bool
  /-- R42 to R47 -/
  pe : PulseEngine
  /-- R48 -/
  laserOut : Bool
  /-- R49 to R51, `out` -/
  outp : OutputLines
  /-- R52, `in` -/
  inp : InputLines
  /-- R53 to R55 -/
  uart : Uart
  /-- R56 -/
  main : MainState
  /-- R57 -/
  tickPending : Bool
  /-- R58 -/
  gie : Bool
  /-- R59: a set, held as a list without repeats -/
  faults : List FaultReason
  /-- R60, oldest event first -/
  trace : List Event
  /-- R61 -/
  refused : Bool
  /-- R69 -/
  mem : Memory
  /-- the model's own: the choices of host, environment and scheduler still to be taken (R68, log 1) -/
  script : List Input
  /-- the model's own: the result of the last RB command run as a transition of its own (log 5) -/
  rbResult : Option RingResult
  /-- the model's own: the `r` of the `refuse(r)` that set `refused` (log 6) -/
  refuseReason : Option RefuseReason
  /-- the model's own: whether the machine stands on the bench, where a row that is a step inside a transition may be run
  alone; false in every run from reset (log 4) -/
  bench : Bool
deriving DecidableEq, Repr

/-- Why no agent has a step any more (R301, R302). Raised by the shared guard `guardLive` alone. Safe: the spec's state is
quiescent too. -/
inductive Fault where
  /-- `faults` holds `r`: quiescent for good (R301). Safe. -/
  | quiescentAfterFault (r : FaultReason)
  /-- `refused` is set: quiescent for good (R302). Safe. -/
  | quiescentAfterRefusal
deriving DecidableEq, Repr

/-- Why the chosen transition does not exist in this state. -/
inductive Refusal where
  /-- an instruction of the table without a meaning; raised by an arm of exec alone, and no arm raises it. Safe. -/
  | notModelled (mnemonic : String)
  /-- the handler is not enabled (R282 to R284), the event not admitted (R285 to R287), the acknowledgment stage has
  nothing to acknowledge (R214), or MAIN has no continuation step (R194, R210, R211): the spec's step relation has no such
  step (R280). Raised by `enterHandler`, `admitEvent`, `TX_ACK` and `mainStep`. Safe. -/
  | notEnabled
  /-- an RB, WRX or WTX unit off the bench: such a unit is a step inside an agent's transition and none of the four kinds
  of R280 (R131, log 4). Raised by `step` alone, through `refuseInner`. Safe. -/
  | notATransition
  /-- the script is empty: nobody has chosen a step (R280, R309). Raised by `step` alone. Safe. -/
  | scriptExhausted
  /-- a byte-class instruction whose operand lies outside its class (R179, R180); the decoder never makes one. Raised by
  `RX_INVALID_MARKER` and `RX_PAYLOAD`. Safe. -/
  | illFormed
deriving DecidableEq, Repr

/-- R66: power-on reset. The fields R66 marks unspecified are 0 or false (logs 8, 9). -/
def State.reset : State where
  rx := { head := 0, tail := 0, slot := Vector.replicate Config.rxCap 0 }
  tx := { head := 0, tail := 0, slot := Vector.replicate Config.txCap 0 }
  dup := { expectFirst := true, prev := 0 }
  fc := { consumed := 0, pendingAcks := 0 }
  txie := false
  pe := { frequency := 0, timer := 0, duration := 0, remaining := 0, cursor := 0, sentinel := 0 }
  laserOut := false
  outp := { air := false, aux1 := false, aux2 := false }
  inp := { door := false, chiller := false, limit := Vector.replicate 6 false }
  uart := { rxFull := false, rxData := 0, rxOvr := false, txFree := true }
  main := { mode := .idle, inIdle := false, nested := .idle }
  tickPending := false
  gie := false
  faults := []
  trace := []
  refused := false
  mem := []
  script := []
  rbResult := none
  refuseReason := none
  bench := false

end Sys2Proof.Machine
end

