-- ==== Sys2Proof/Machine/Ring.lean ====
section
/-! DEFINITION. The ring-buffer controller, generic in the capacity C (40_ringbuffer.md R150 to R157). `Full` and `None` are
`none`: results, not exceptions. An index outside the slots, which no run reaches, reads 0 and writes nothing (log 18). -/

namespace Sys2Proof.Machine

/-- Index arithmetic modulo the capacity (R157): `(i + 1) mod C`. -/
def ringNext (C : Nat) (i : Byte) : Byte := BitVec.ofNat 8 ((i.toNat + 1) % C)

/-- R85 `SlotRead(r, i)`. -/
def RingBuf.slotAt {C : Nat} (r : RingBuf C) (i : Byte) : Byte := (r.slot[i.toNat]?).getD 0

/-- R85 `SlotWrite(r, i, b)`. -/
def RingBuf.slotPut {C : Nat} (r : RingBuf C) (i b : Byte) : RingBuf C :=
  { r with slot := r.slot.setIfInBounds i.toNat b }

/-- R152 `RB_IS_EMPTY`: head == tail. -/
def RingBuf.isEmpty {C : Nat} (r : RingBuf C) : Bool := r.head == r.tail

/-- R153 `RB_IS_FULL`: (head + 1) mod C == tail. -/
def RingBuf.isFull {C : Nat} (r : RingBuf C) : Bool := ringNext C r.head == r.tail

/-- R150 `RB_PUSH`: `none` is `Full`. -/
def RingBuf.push {C : Nat} (r : RingBuf C) (b : Byte) : Option (RingBuf C) :=
  if ringNext C r.head = r.tail then none
  else some { r.slotPut r.head b with head := ringNext C r.head }

/-- R151 `RB_POP`: `none` is `None`. -/
def RingBuf.pop {C : Nat} (r : RingBuf C) : Option (Byte × RingBuf C) :=
  if r.head = r.tail then none
  else some (r.slotAt r.tail, { r with tail := ringNext C r.tail })

/-- R154: (head + C - tail) mod C, as the mathematical integers of R25. -/
def RingBuf.length {C : Nat} (r : RingBuf C) : Nat := (((r.head.toNat : Int) + C - r.tail.toNat) % (C : Int)).toNat

/-- R154 `RB_LEN`. -/
def RingBuf.len {C : Nat} (r : RingBuf C) : Byte := BitVec.ofNat 8 r.length

/-- The legal index values of R30: both in `0 .. C-1`. -/
abbrev RingBuf.valid {C : Nat} (r : RingBuf C) : Prop := r.head.toNat < C ∧ r.tail.toNat < C

/-- The items held, oldest first: the slots from tail on (R150, R151, R156). -/
def RingBuf.contents {C : Nat} (r : RingBuf C) : List Byte :=
  (List.range r.length).map fun k => r.slotAt (BitVec.ofNat 8 ((r.tail.toNat + k) % C))

end Sys2Proof.Machine
end

