-- ==== Sys2Proof/Machine/Flags.lean ====
section
/-! DEFINITION. The one-bit conditions of 10_state.md R64 that are computed rather than stored. The block has no arithmetic
condition codes (R64); its one carry is the pulse accumulator's (43_pulse_engine.md R233). -/

namespace Sys2Proof.Machine

/-- R282: the receive-complete source is enabled. -/
def State.rxiEnabled (s : State) : Bool := s.uart.rxFull && s.gie

/-- R283: the transmit-ready source is enabled. -/
def State.txiEnabled (s : State) : Bool := s.txie && s.uart.txFree && s.gie

/-- R284: the periodic timer source is enabled. -/
def State.tmiEnabled (s : State) : Bool := s.tickPending && s.gie

/-- R47: raster mode is active exactly when the cursor has not reached the end sentinel. -/
def PulseEngine.rasterActive (p : PulseEngine) : Bool := p.cursor != p.sentinel

/-- R233: the 17-bit sum of the accumulator and the step. -/
def PulseEngine.sum (p : PulseEngine) : BitVec 17 := p.timer.setWidth 17 + p.frequency.setWidth 17

/-- R233, R234: bit 16 of the sum, the unsigned wraparound. -/
def PulseEngine.wraps (p : PulseEngine) : Bool := p.sum.getLsbD 16

/-- 43_pulse_engine.md, mode table before R230: the three modes, read off the state. -/
inductive PulseMode where
  | raster
  | fixed
  | off
deriving DecidableEq, Repr

/-- The mode of the pulse engine. -/
def PulseEngine.mode (p : PulseEngine) : PulseMode :=
  if p.rasterActive then .raster else if p.duration = 0 then .off else .fixed

end Sys2Proof.Machine
end

