-- ==== Sys2Proof/Machine/Memory.lean ====
section
/-! DEFINITION. Caller memory (20_memory.md R83 to R86): a list of (address, byte) pairs in one canonical form. -/

namespace Sys2Proof.Machine

/-- What an unlisted address reads as. The spec gives caller memory any initial contents (10_state.md R69); 0 is a DESIGN
CHOICE (log 9, unsafe). -/
def Memory.unlisted : Byte := 0

/-- The byte at an address. -/
def Memory.read (m : Memory) (a : Nat) : Byte :=
  match m with
  | [] => Memory.unlisted
  | (x, v) :: rest => if x = a then v else Memory.read rest a

/-- Store a byte, keeping the canonical form: writing the unlisted value removes the entry. -/
def Memory.write (m : Memory) (a : Nat) (v : Byte) : Memory :=
  match m with
  | [] => if v = Memory.unlisted then [] else [(a, v)]
  | (x, w) :: rest =>
    if a < x then (if v = Memory.unlisted then (x, w) :: rest else (a, v) :: (x, w) :: rest)
    else if a = x then (if v = Memory.unlisted then rest else (x, v) :: rest)
    else (x, w) :: Memory.write rest a v

/-- The canonical form above a bound: addresses strictly rising, none below `lo`, all below 2^ADDR_W, no entry equal to
the unlisted value. -/
def Memory.wfFrom (lo : Nat) (m : Memory) : Bool :=
  match m with
  | [] => true
  | (x, v) :: rest =>
    decide (lo ≤ x) && decide (x < 2 ^ Config.addrW) && v != Memory.unlisted && Memory.wfFrom (x + 1) rest

/-- The canonical form of caller memory. -/
def Memory.wf (m : Memory) : Bool := Memory.wfFrom 0 m

/-- R84 `MemRead(addr, 1)`. -/
def memRead (m : Memory) (addr : Addr) : Byte := Memory.read m addr.toNat

/-- R86 `MemWrite(addr, 1, v)`. -/
def memWrite (m : Memory) (addr : Addr) (v : Byte) : Memory := Memory.write m addr.toNat v

end Sys2Proof.Machine
end

