-- ==== Sys2Proof/Machine/Operands.lean ====
section
/-! DEFINITION. The operand computations: the binary64 value of `SEND_PARAM`, its scaling, rounding, bias and groups
(30_encoding.md R122 to R127, R130; 42_serial_tx_flow.md R196 to R198), the raster end (43_pulse_engine.md R232) and the
input lines. Binary64 and its default rounding are what the spec itself marks as general knowledge (PRESUMED, log 16). -/

namespace Sys2Proof.Machine

/-! ## binary64 -/

/-- The sign bit. -/
def f64Negative (v : F64) : Bool := v.getLsbD 63

/-- The 63 bits below the sign; for finite numbers their order is the order of the magnitudes. -/
def f64MagnitudeBits (v : F64) : Nat := (v.extractLsb' 0 63).toNat

/-- The exponent field. -/
def f64ExpField (v : F64) : Nat := (v.extractLsb' 52 11).toNat

/-- The fraction field. -/
def f64Fraction (v : F64) : Nat := (v.extractLsb' 0 52).toNat

/-- The integer significand: `|v| = f64Significand v * 2 ^ f64Exponent v` for a finite `v`. -/
def f64Significand (v : F64) : Nat :=
  if f64ExpField v = 0 then f64Fraction v else 2 ^ 52 + f64Fraction v

/-- The power of two of the significand's unit. -/
def f64Exponent (v : F64) : Int := (max (f64ExpField v) 1 : Nat) - 1075

/-- Not an infinity and not a NaN. -/
def f64Finite (v : F64) : Bool := f64ExpField v != 2047

/-- The rational value of a finite binary64, for statements. -/
def f64Value (v : F64) : ℚ :=
  (if f64Negative v then -1 else 1) * (f64Significand v : ℚ) * (2 : ℚ) ^ f64Exponent v

/-! ## The range of R13, R196 -/

/-- The binary64 nearest to -134217.728. -/
def paramLow : F64 := 0xC100624DD2F1A9FC

/-- The binary64 nearest to 134217.727. -/
def paramHigh : F64 := 0x4100624DD0E56042

/-- R196: `-134217.728 <= value <= 134217.727`, on binary64 numbers; false for NaN and the infinities, whose magnitude bits
exceed those of every finite number. -/
def paramInRange (v : F64) : Bool :=
  if f64Negative v then decide (f64MagnitudeBits v ≤ f64MagnitudeBits paramLow)
  else decide (f64MagnitudeBits v ≤ f64MagnitudeBits paramHigh)

/-! ## Scaling and rounding, R197 -/

/-- The bits of `x` that do not fit a 53-bit significand. -/
def excessBits (x : Nat) : Nat := if x < 2 ^ 53 then 0 else x.log2 - 52

/-- `x / 2 ^ k` rounded to the nearest integer, ties to even. -/
def roundTiesEven (x k : Nat) : Nat :=
  let q := x / 2 ^ k
  let r := x % 2 ^ k
  if 2 * r < 2 ^ k then q
  else if 2 ^ k < 2 * r then q + 1
  else q + q % 2

/-- The integer significand of `fl64(|value| * 1000)`, in units of `2 ^ productExponent`. -/
def productSignificand (v : F64) : Nat :=
  let x := f64Significand v * Config.paramScale
  roundTiesEven x (excessBits x)

/-- The power of two of that significand's unit. -/
def productExponent (v : F64) : Int := f64Exponent v + excessBits (f64Significand v * Config.paramScale)

/-- `x * 2 ^ e` rounded to the nearest integer, ties away from zero (R24, R197), for `x < 2 ^ 54`: below `2 ^ -63` units
the value is under one half and rounds to 0. -/
def roundTiesAway (x : Nat) (e : Int) : Nat :=
  match e with
  | .ofNat k => x * 2 ^ k
  | .negSucc k => if k < 63 then (x + 2 ^ k) / 2 ^ (k + 1) else 0

/-- R196 `n`: `round_ties_away(fl64(value * 1000))`. -/
def paramInteger (v : F64) : Int :=
  if f64Negative v then -(roundTiesAway (productSignificand v) (productExponent v) : Int)
  else (roundTiesAway (productSignificand v) (productExponent v) : Int)

/-! ## Bias and groups, R123 to R127, R198 -/

/-- R126, R198: `v = n + PARAM_BIAS`, a u28. -/
def paramBiased (n : Int) : BitVec 28 := BitVec.ofInt 28 (n + Config.paramBias)

/-- R124: value byte `Gi = 1 ++ v[7i+6 : 7i]`. -/
def paramGroup (v : BitVec 28) (i : Nat) : Byte := paramValueByte (BitVec.ofNat 7 (v.toNat / 2 ^ (7 * i)))

/-- R123, R198: the first value byte of the frame of `value`. -/
def paramFirst (value : F64) : Byte := paramGroup (paramBiased (paramInteger value)) 0

/-- R122, R123: the other bytes of the frame: groups 1 to 3, then the tag. -/
def paramRest (tag : Byte) (value : F64) : List Byte :=
  let v := paramBiased (paramInteger value)
  [paramGroup v 1, paramGroup v 2, paramGroup v 3, tag]

/-- R127: the peer's inverse: `v` from four value bytes, less the bias, in thousandths. -/
def peerDecode (g0 g1 g2 g3 : Byte) : Int :=
  ((g0.toNat % 128 + g1.toNat % 128 * 2 ^ 7 + g2.toNat % 128 * 2 ^ 14 + g3.toNat % 128 * 2 ^ 21 : Nat) : Int)
    - Config.paramBias

/-! ## Raster bounds and input lines -/

/-- R232: the end of the buffer does not fit in ADDR_W bits. -/
def rasterTooLong (addr len : Addr) : Bool := decide (2 ^ Config.addrW - 1 < addr.toNat + len.toNat)

/-- R265: limit switch `i`, where `i <= 5`. -/
def limitLine (l : InputLines) (i : Byte) : Option Bool := l.limit[i.toNat]?

/-- R297: drive one input line. -/
def setInputLine (l : InputLines) (line : InputLine) (v : Bool) : InputLines :=
  match line with
  | .door => { l with door := v }
  | .chiller => { l with chiller := v }
  | .limit i => { l with limit := l.limit.set i.val v }

end Sys2Proof.Machine
end

