-- ==== Sys2Proof/Machine/Ops.lean ====
section
/-! DEFINITION. The operations the meanings share: emitting events, recording faults and refusals, the guards of each kind
of transition, entering a handler, and the pieces of the transport that several rules use. -/

namespace Sys2Proof.Machine

/-- The outcomes of a step of this machine. -/
abbrev Result := Host.Outcome State Fault Refusal

/-! ## The trace, faults and refusals -/

/-- R27 `emit E`: append an event to the trace. -/
def State.emit (s : State) (e : Event) : State := { s with trace := s.trace ++ [e] }

/-- R290 `request_stop(code)`: one event, no other write. -/
def State.requestStop (s : State) (r : StopReason) : State := s.emit (.stopReq (Config.stopCode r))

/-- R301: add a reason to the set `faults`. -/
def State.recordFault (s : State) (r : FaultReason) : State :=
  { s with faults := if r ∈ s.faults then s.faults else r :: s.faults }

/-- R302: set `refused`, and keep the reason in the model's own field (log 6). -/
def State.recordRefusal (s : State) (r : RefuseReason) : State := { s with refused := true, refuseReason := some r }

/-- R301 `raise Fault(r)`: the fault is recorded and no other write of the transition is applied (log 6). -/
def raise (r : FaultReason) (s : State) : Result := .next (s.recordFault r)

/-- R302 `refuse(r)`: the refusal is recorded and no other write of the transition is applied (log 6). -/
def refuse (r : RefuseReason) (s : State) : Result := .next (s.recordRefusal r)

/-- R28, R301: a transition that raises applies none of its writes to `s`. -/
def settle (s : State) (r : Except FaultReason State) : Result :=
  match r with
  | .ok t => .next t
  | .error f => raise f s

/-- R301, R302: no fault and no refusal is recorded; otherwise no agent has a step. -/
abbrev State.live (s : State) : Prop := s.faults = [] ∧ s.refused = false

/-- R301, R302: a state with a fault or a refusal is quiescent. Every transition passes this guard. -/
def guardLive (s : State) (k : Result) : Result :=
  match s.faults with
  | r :: _ => .fault (.quiescentAfterFault r)
  | [] => if s.refused then .fault .quiescentAfterRefusal else k

/-! ## Handlers and events -/

/-- Return from a handler (R289): nothing was saved and nothing is restored; control is MAIN's again, `main` unchanged. -/
def returnFromHandler (s : State) : State := s

/-- Taking an interrupt (R280 to R284, R289): a handler that is enabled runs to completion as one transition. Entry saves
nothing and changes no mode (R289), so the body alone says what the activation writes. A handler that is not enabled has
no step (log 7). -/
def enterHandler (enabled : Bool) (body : State → State) (s : State) : Result :=
  guardLive s (if enabled then .next (returnFromHandler (body s)) else .refused .notEnabled)

/-- An ENV event (R280, R285 to R287): not admitted means no such transition (log 7). -/
def admitEvent (admitted : Bool) (k : Result) (s : State) : Result :=
  guardLive s (if admitted then k else .refused .notEnabled)

/-! ## Operations: admission and slots (42_serial_tx_flow.md R190, R191) -/

/-- R191: the slot a host operation would run in, `none` while an operation is running. -/
def admissionSlot (s : State) : Option SlotId :=
  match s.main.mode with
  | .idle => some .top
  | .sending _ _ => none
  | .reading => if s.main.inIdle && s.main.nested == .idle then some .nested else none

/-- R191: admission of every operation but `READ_BYTE` and `IDLE_RETURN`; a refused issue changes nothing else. -/
def admitOp (s : State) (k : SlotId → Result) : Result :=
  guardLive s <|
    match admissionSlot s with
    | some slot => k slot
    | none => refuse .issueWhileBusy s

/-- R191: admission to the top slot alone (`READ_BYTE`). -/
def admitTop (s : State) (k : Result) : Result :=
  guardLive s <|
    match admissionSlot s with
    | some .top => k
    | some .nested => refuse .issueWhileBusy s
    | none => refuse .issueWhileBusy s

/-- R220: `IDLE_RETURN` runs exactly while an `on_idle` callback runs and its slot is free. -/
def admitIdleReturn (s : State) (k : Result) : Result :=
  guardLive s <|
    match admissionSlot s with
    | some .nested => k
    | some .top => refuse .idleReturnOutsideIdle s
    | none => refuse .idleReturnOutsideIdle s

/-- The mode of the top slot that still has the bytes `q` to send. -/
def Mode.ofQueue (q : List Byte) : Mode :=
  match q with
  | [] => .idle
  | b :: rest => .sending b rest

/-- The nested slot that still has the bytes `q` to send. -/
def Nested.ofQueue (q : List Byte) : Nested :=
  match q with
  | [] => .idle
  | b :: rest => .sending b rest

/-- R190: `slot <- SENDING(q)`, or `slot <- IDLE` when `q` is empty. -/
def MainState.setSlot (m : MainState) (slot : SlotId) (q : List Byte) : MainState :=
  match slot with
  | .top => { m with mode := Mode.ofQueue q }
  | .nested => { m with nested := Nested.ofQueue q }

/-- R190 on the whole state. -/
def State.setSlot (s : State) (slot : SlotId) (q : List Byte) : State := { s with main := s.main.setSlot slot q }

/-- R192: an operation with a result ends by `emit RET(v)`. -/
def State.ret (s : State) (v : RetVal) : State := s.emit (.ret v)

/-! ## The transmit side (42_serial_tx_flow.md R193 to R195) -/

/-- R195 `send_step`: enqueue one byte, arm the transmit-ready source, keep the rest in the slot. It requires a TX ring that
is not full, and writes nothing otherwise. -/
def sendStep (slot : SlotId) (b : Byte) (rest : List Byte) (s : State) : State :=
  match s.tx.push b with
  | some tx => ({ s with tx := tx, txie := true } : State).setSlot slot rest
  | none => s

/-- R193, R196: `slot <- SENDING(b :: rest)`, then one `send_step` unless the TX ring is full. -/
def startSending (slot : SlotId) (b : Byte) (rest : List Byte) (s : State) : State :=
  if s.tx.isFull then s.setSlot slot (b :: rest) else sendStep slot b rest (s.setSlot slot (b :: rest))

/-- R193: the operation of sending one raw byte, as the host issues it. -/
def sendOp (b : Byte) (s : State) : Result := admitOp s fun slot => .next (startSending slot b [] s)

/-- R213 `send(b)`: hand a byte to the transmitter. -/
def State.sendWire (s : State) (b : Byte) : State :=
  let t := s.emit (.tx b)
  { t with uart := { t.uart with txFree := false } }

/-- R214: send `CODE_ACK` and decrement `pending_acks`. -/
def sendAck (s : State) : State :=
  let t := s.sendWire Config.codeAck
  { t with fc := { t.fc with pendingAcks := t.fc.pendingAcks - 1 } }

/-- R215, R217: send the byte `RB_POP(tx)` returns, if there is one. -/
def sendBuffered (s : State) : State :=
  match s.tx.pop with
  | some (b, tx) => ({ s with tx := tx } : State).sendWire b
  | none => s

/-- R216: disarm when the TX ring is empty and no acknowledgment is pending. -/
def disarm (s : State) : State :=
  if s.tx.isEmpty && s.fc.pendingAcks == 0 then { s with txie := false } else s

/-- R218: the transmit-ready handler. -/
def txiBody (s : State) : State := disarm (if s.fc.pendingAcks ≠ 0 then sendAck s else sendBuffered s)

/-! ## The receive side of the mainline (R205 to R211) -/

/-- R207 `chunk_account`: count one dequeued payload byte; at a full chunk queue one acknowledgment and arm. -/
def chunkAccount (s : State) : Except FaultReason State :=
  if s.fc.consumed.toNat + 1 = Config.chunkSize then
    if s.fc.pendingAcks.toNat = Config.pendingAcksMax then .error .ackCounterOverflow
    else .ok { s with fc := { consumed := 0, pendingAcks := s.fc.pendingAcks + 1 }, txie := true }
  else .ok { s with fc := { s.fc with consumed := s.fc.consumed + 1 } }

/-- R206 `rx_take`: dequeue one payload byte with flow-control accounting. It requires a nonempty RX ring, and writes
nothing otherwise. -/
def rxTake (s : State) : Except FaultReason State :=
  match s.rx.pop with
  | some (b, rx) => (chunkAccount { s with rx := rx }).map fun t => t.ret (.byte b)
  | none => .ok s

/-- R205: begin the wait of a `READ_BYTE` that finds the RX ring empty. -/
def beginWait (s : State) : State :=
  let t := s.emit (.call .underrun)
  { t with main := { t.main with mode := .reading, inIdle := false } }

/-- R210: the waiting read takes a byte and its slot is free again. -/
def finishWait (s : State) : Except FaultReason State :=
  (rxTake s).map fun t => { t with main := { t.main with mode := .idle } }

/-- R211: one idle iteration of the waiting read. -/
def idleIteration (s : State) : State :=
  let t := s.emit (.call .idle)
  { t with main := { t.main with inIdle := true } }

/-- R194: the continuation of a waiting send: MAIN has a step exactly while the TX ring is not full. -/
def resumeSending (slot : SlotId) (b : Byte) (rest : List Byte) (s : State) : Result :=
  if s.tx.isFull then .refused .notEnabled else .next (sendStep slot b rest s)

/-- MAIN's continuation step (R280; R194, R210, R211): a send that waits in either slot, or a read that waits outside a
callback. MAIN has no step when it is idle, and none of its own while a callback runs whose slot is free. -/
def mainStep (s : State) : Result :=
  guardLive s <|
    match s.main.mode with
    | .idle => .refused .notEnabled
    | .sending b rest => resumeSending .top b rest s
    | .reading =>
      if s.main.inIdle then
        match s.main.nested with
        | .idle => .refused .notEnabled
        | .sending b rest => resumeSending .nested b rest s
      else if s.rx.isEmpty then .next (idleIteration s)
      else settle s (finishWait s)

/-! ## The stages of the receive handler (41_serial_rx.md R170 to R181) -/

/-- R170: handler entry reads the data register and frees it. -/
def rxEntry (s : State) : State := { s with uart := { s.uart with rxFull := false, rxOvr := false } }

/-- R171: the overrun check. -/
def rxOverrunCheck (ovr : Bool) (s : State) : State := if ovr then s.requestStop .usartOverrun else s

/-- R172: the protocol reset. -/
def rxProtocolReset (s : State) : State :=
  { s with dup := { s.dup with expectFirst := true }, fc := { s.fc with consumed := 0 } }

/-- R173: hold a first copy. -/
def rxHold (b : Byte) (s : State) : State := { s with dup := { expectFirst := false, prev := b } }

/-- R174: the second copy has been seen; a first copy is expected again. -/
def rxExpectFirst (s : State) : State := { s with dup := { s.dup with expectFirst := true } }

/-- R175 to R178: a control code invokes its handler and nothing else. -/
def rxControl (k : CtrlKind) (s : State) : State := s.emit (.ctrl k)

/-- R179: the invalid-marker stop request. -/
def rxInvalid (s : State) : State := s.requestStop .invalidMarker

/-- R180: push a payload byte; a full RX ring drops it and requests a stop. -/
def rxDeliver (l : Byte) (s : State) : State :=
  match s.rx.push l with
  | some rx => { s with rx := rx }
  | none => s.requestStop .rxBufferOverflow

/-- R113, R181: dispatch a logical byte in the rule's priority order. -/
def rxDispatch (l : Byte) (s : State) : State :=
  if l = Config.codeStop then rxControl .stop s
  else if l = Config.codeResume then rxControl .resume s
  else if l = Config.codeStatus then rxControl .status s
  else if l = Config.codeSuperstatus then rxControl .superstatus s
  else if l.toNat < Config.printableMin then rxInvalid s
  else rxDeliver l s

/-- R172 to R181: what the handler does with the wire byte `b`. -/
def rxByte (b : Byte) (s : State) : State :=
  if b = Config.codeReset then rxProtocolReset s
  else if s.dup.expectFirst then rxHold b s
  else if b = s.dup.prev then rxDispatch b (rxExpectFirst s)
  else (rxExpectFirst s).requestStop .transmissionError

/-- R181: the receive handler. -/
def rxiBody (s : State) : State := rxByte s.uart.rxData (rxOverrunCheck s.uart.rxOvr (rxEntry s))

/-! ## Ring commands and byte classes run alone (log 4) -/

/-- A step inside an agent's transition, run alone: exactly its rule's writes (log 4). -/
def unitStep (body : State → State) (s : State) : Result := guardLive s (.next (body s))

/-- R131, column result: the answer of a ring command goes to the model's own result field (log 5). -/
def State.ringResult (s : State) (r : RingResult) : State := { s with rbResult := some r }

/-- R150 on the instance `r`. -/
def pushCommand (r : RingId) (b : Byte) (s : State) : State :=
  match r with
  | .rx =>
    match s.rx.push b with
    | some q => ({ s with rx := q } : State).ringResult .ok
    | none => s.ringResult .full
  | .tx =>
    match s.tx.push b with
    | some q => ({ s with tx := q } : State).ringResult .ok
    | none => s.ringResult .full

/-- R151 on the instance `r`. -/
def popCommand (r : RingId) (s : State) : State :=
  match r with
  | .rx =>
    match s.rx.pop with
    | some (b, q) => ({ s with rx := q } : State).ringResult (.item b)
    | none => s.ringResult .none
  | .tx =>
    match s.tx.pop with
    | some (b, q) => ({ s with tx := q } : State).ringResult (.item b)
    | none => s.ringResult .none

/-! ## Undecodable units -/

/-- R302: the refusal a rejected decoding stands for. -/
def refuseReasonOf : DecodeError → RefuseReason
  | .unknownSelector => .unknownSelector
  | .operandType => .operandType

/-- R133, R302: a unit the decoder rejects is refused. -/
def rejectUnit (e : DecodeError) (s : State) : Result := guardLive s (refuse (refuseReasonOf e) s)

end Sys2Proof.Machine
end

