-- ==== Sys2Proof/Machine/ControlIo.lean ====
section
/-! DEFINITION. The assist outputs and sensor inputs (44_control_io.md R260 to R266) and the end of hardware init
(70_reset_and_hazards.md R341). -/

namespace Sys2Proof.Machine

/-- SET_AIR (R260). -/
def execSetAir (v : Bool) (s : State) : Result := admitOp s fun _ => .next { s with outp := { s.outp with air := v } }

/-- SET_AUX1 (R261). -/
def execSetAux1 (v : Bool) (s : State) : Result := admitOp s fun _ => .next { s with outp := { s.outp with aux1 := v } }

/-- SET_AUX2 (R262). -/
def execSetAux2 (v : Bool) (s : State) : Result := admitOp s fun _ => .next { s with outp := { s.outp with aux2 := v } }

/-- READ_DOOR (R263). -/
def execReadDoor (s : State) : Result := admitOp s fun _ => .next (s.ret (.bool s.inp.door))

/-- READ_CHILLER (R264). -/
def execReadChiller (s : State) : Result := admitOp s fun _ => .next (s.ret (.bool s.inp.chiller))

/-- READ_LIMIT (R265). -/
def execReadLimit (i : Byte) (s : State) : Result :=
  admitOp s fun _ =>
    match limitLine s.inp i with
    | some v => .next (s.ret (.bool v))
    | none => refuse .badLimitIndex s

/-- INIT_DONE (R341). -/
def execInitDone (s : State) : Result := admitOp s fun _ => .next { s with gie := true }

/-- R22: the electrical level of an output line whose logical value is `v`; the polarity is an OPEN parameter (log 13). -/
def outputPinHigh (v : Bool) : Bool := v == Config.outActiveHigh

/-- R22: the logical value of an input line whose electrical level is `high` (log 13). -/
def inputLineOfPin (high : Bool) : Bool := high == Config.inActiveHigh

end Sys2Proof.Machine
end

