-- ==== Sys2Proof/Machine/Environment.lean ====
section
/-! DEFINITION. The environment's events (60_exceptions.md R285 to R287, R297, R298). -/

namespace Sys2Proof.Machine

/-- RX_ARRIVE (R285): a wire byte arrives; a byte already waiting is kept and the new one is lost. -/
def execRxArrive (b : Byte) (s : State) : Result :=
  admitEvent s.gie
    (.next (if s.uart.rxFull then { s with uart := { s.uart with rxOvr := true } }
      else { s with uart := { s.uart with rxData := b, rxFull := true } })) s

/-- TX_DONE (R286): the transmitter has taken the byte. -/
def execTxDone (s : State) : Result :=
  admitEvent (!s.uart.txFree) (.next { s with uart := { s.uart with txFree := true } }) s

/-- TICK (R287): the timer period elapses. -/
def execTick (s : State) : Result :=
  admitEvent s.gie (if s.tickPending then raise .tickLost s else .next { s with tickPending := true }) s

/-- INPUT_SET (R297): an input line changes, at any step. -/
def execInputSet (line : InputLine) (v : Bool) (s : State) : Result :=
  admitEvent true (.next { s with inp := setInputLine s.inp line v }) s

/-- R90: the address lies in the active raster window. -/
def inRasterWindow (p : PulseEngine) (a : Addr) : Bool :=
  p.rasterActive && decide (p.cursor.toNat ≤ a.toNat) && decide (a.toNat < p.sentinel.toNat)

/-- MEM_WRITE (R298, R90): the caller writes memory. -/
def execMemWrite (addr : Addr) (v : Byte) (s : State) : Result :=
  admitEvent true
    (if inRasterWindow s.pe addr then raise .rasterBufferMutated s else .next { s with mem := memWrite s.mem addr v }) s

end Sys2Proof.Machine
end

