-- ==== Sys2Proof/Machine/Pulse.lean ====
section
/-! DEFINITION. The pulse engine and raster sequencer (43_pulse_engine.md R230 to R243). -/

namespace Sys2Proof.Machine

/-- SET_PULSE_DURATION (R230). -/
def execSetPulseDuration (d : Byte) (s : State) : Result :=
  admitOp s fun _ => .next { s with pe := { s.pe with duration := d, cursor := s.pe.sentinel } }

/-- SET_PULSE_FREQUENCY (R231). -/
def execSetPulseFrequency (f : U16) (s : State) : Result :=
  admitOp s fun _ => .next { s with pe := { s.pe with frequency := f } }

/-- START_RASTER (R232). -/
def execStartRaster (addr len : Addr) (s : State) : Result :=
  admitOp s fun _ =>
    if rasterTooLong addr len then refuse .rasterRange s
    else .next { s with pe := { s.pe with cursor := addr, sentinel := addr + len, timer := 0xFFFF } }

/-- R233: the width a wrapping tick loads, from memory or from the fixed duration, and the cursor after it. -/
def PulseEngine.load (p : PulseEngine) (m : Memory) : PulseEngine :=
  if p.rasterActive then { p with remaining := memRead m p.cursor, cursor := p.cursor + 1 }
  else { p with remaining := p.duration }

/-- R233: the accumulator's advance and, on a wraparound, the load. -/
def PulseEngine.advance (p : PulseEngine) (m : Memory) : PulseEngine :=
  let q : PulseEngine := { p with timer := p.sum.setWidth 16 }
  if p.wraps then q.load m else q

/-- R233: the output of a tick, high while ticks remain. -/
def PulseEngine.high (p : PulseEngine) : Bool := p.remaining != 0

/-- R233: one high tick is used up. -/
def PulseEngine.countDown (p : PulseEngine) : PulseEngine :=
  if p.high then { p with remaining := p.remaining - 1 } else p

/-- R233: one tick of the engine over caller memory: the engine after it and the output level. -/
def PulseEngine.tick (p : PulseEngine) (m : Memory) : PulseEngine × Bool :=
  ((p.advance m).countDown, (p.advance m).high)

/-- R233: the periodic handler. -/
def tmiBody (s : State) : State :=
  let r := s.pe.tick s.mem
  ({ s with tickPending := false, pe := r.1, laserOut := r.2 } : State).emit (.laser r.2)

/-- EV_TICK (R233): one activation of TMI. -/
def execEvTick (s : State) : Result := enterHandler s.tmiEnabled tmiBody s

/-- The levels of `n` consecutive ticks with no other transition between them, and the engine after them (R239 to
R241). -/
def PulseEngine.ticks (m : Memory) : Nat → PulseEngine → List Bool × PulseEngine
  | 0, p => ([], p)
  | n + 1, p =>
    let r := p.tick m
    let rest := PulseEngine.ticks m n r.1
    (r.2 :: rest.1, rest.2)

end Sys2Proof.Machine
end

