-- ==== Sys2Proof/Machine/Receive.lean ====
section
/-! DEFINITION. The receive path: the handler EV_RX (41_serial_rx.md R170 to R181) and the inbound byte classes, format WRX
(30_encoding.md R112 to R114), each with exactly its own rule's writes (log 4). -/

namespace Sys2Proof.Machine

/-- EV_RX (R170 to R181): one activation of RXI. -/
def execEvRx (s : State) : Result := enterHandler s.rxiEnabled rxiBody s

/-- RX_RESET (R172). -/
def execRxReset (s : State) : Result := unitStep rxProtocolReset s

/-- RX_STOP (R175). -/
def execRxStop (s : State) : Result := unitStep (rxControl .stop) s

/-- RX_RESUME (R176). -/
def execRxResume (s : State) : Result := unitStep (rxControl .resume) s

/-- RX_STATUS (R177). -/
def execRxStatus (s : State) : Result := unitStep (rxControl .status) s

/-- RX_SUPERSTATUS (R178). -/
def execRxSuperstatus (s : State) : Result := unitStep (rxControl .superstatus) s

/-- RX_INVALID_MARKER (R179). An operand outside the class is no instruction of the table (log 23). -/
def execRxInvalidMarker (l : Byte) (s : State) : Result :=
  guardLive s (if isInvalidMarker l then .next (rxInvalid s) else .refused .illFormed)

/-- RX_PAYLOAD (R180). An operand outside the class is no instruction of the table (log 23). -/
def execRxPayload (l : Byte) (s : State) : Result :=
  guardLive s (if isPayload l then .next (rxDeliver l s) else .refused .illFormed)

end Sys2Proof.Machine
end

