-- ==== Sys2Proof/Machine/RingBuffer.lean ====
section
/-! DEFINITION. The ring-buffer controller's commands, format RB (40_ringbuffer.md R150 to R154, 30_encoding.md R131), run
alone on the bench (log 4); the answer stands in `rbResult` (log 5). -/

namespace Sys2Proof.Machine

/-- RB_PUSH (R150). -/
def execRbPush (r : RingId) (b : Byte) (s : State) : Result := unitStep (pushCommand r b) s

/-- RB_POP (R151). -/
def execRbPop (r : RingId) (s : State) : Result := unitStep (popCommand r) s

/-- RB_IS_EMPTY (R152). -/
def execRbIsEmpty (r : RingId) (s : State) : Result :=
  unitStep (fun t => t.ringResult (.flag (match r with | .rx => t.rx.isEmpty | .tx => t.tx.isEmpty))) s

/-- RB_IS_FULL (R153). -/
def execRbIsFull (r : RingId) (s : State) : Result :=
  unitStep (fun t => t.ringResult (.flag (match r with | .rx => t.rx.isFull | .tx => t.tx.isFull))) s

/-- RB_LEN (R154). -/
def execRbLen (r : RingId) (s : State) : Result :=
  unitStep (fun t => t.ringResult (.len (match r with | .rx => t.rx.len | .tx => t.tx.len))) s

end Sys2Proof.Machine
end

