-- ==== Sys2Proof/Machine/Transport.lean ====
section
/-! DEFINITION. The mainline transport operations (42_serial_tx_flow.md R193 to R212, R220), the transmit-ready handler
EV_TX_READY (R213 to R218) and the outbound byte classes, format WTX (30_encoding.md R120). -/

namespace Sys2Proof.Machine

/-- SEND_BYTE (R193, R194). -/
def execSendByte (b : Byte) (s : State) : Result := sendOp b s

/-- SEND_PARAM (R196 to R198). -/
def execSendParam (tag : Byte) (value : F64) (s : State) : Result :=
  admitOp s fun slot =>
    if tag.getLsbD 7 then refuse .tagNot7Bit s
    else if paramInRange value then .next (startSending slot (paramFirst value) (paramRest tag value) s)
    else raise .paramOutOfRange s

/-- READ_BYTE (R205, R206, R209). -/
def execReadByte (s : State) : Result :=
  admitTop s (if s.rx.isEmpty then .next (beginWait s) else settle s (rxTake s))

/-- BYTES_AVAILABLE (R201). -/
def execBytesAvailable (s : State) : Result := admitOp s fun _ => .next (s.ret (.bool (!s.rx.isEmpty)))

/-- IDLE_RETURN (R220). -/
def execIdleReturn (s : State) : Result :=
  admitIdleReturn s (.next { s with main := { s.main with inIdle := false } })

/-- EV_TX_READY (R218): one activation of TXI. -/
def execEvTxReady (s : State) : Result := enterHandler s.txiEnabled txiBody s

/-- TX_ACK (R214): the acknowledgment stage of a TXI activation, which exists while an acknowledgment is pending
(log 21). -/
def execTxAck (s : State) : Result :=
  guardLive s (if s.fc.pendingAcks = 0 then .refused .notEnabled else .next (sendAck s))

/-- TX_STATUS_END (R120, R193): the interpreter sends `CODE_STATUS_END` through `SEND_BYTE` (log 22). -/
def execTxStatusEnd (s : State) : Result := sendOp Config.codeStatusEnd s

/-- TX_PARAM_VALUE (R122, R124, R198): one value byte, enqueued as by `SEND_BYTE` (log 22). -/
def execTxParamValue (g : BitVec 7) (s : State) : Result := sendOp (paramValueByte g) s

/-- TX_PARAM_TAG (R122, R125, R198): the tag byte, enqueued as by `SEND_BYTE` (log 22). -/
def execTxParamTag (tag : BitVec 7) (s : State) : Result := sendOp (paramTagByte tag) s

/-- TX_RAW (R120, R193): any byte the host passes to `SEND_BYTE` (log 22). -/
def execTxRaw (b : Byte) (s : State) : Result := sendOp b s

end Sys2Proof.Machine
end

