-- ==== Sys2Proof/Machine/Dispatch.lean ====
section
/-! DEFINITION. Dispatch: one arm per instruction, each one call of its meaning. -/

namespace Sys2Proof.Machine

def exec (i : Instr) (s : State) : Host.Outcome State Fault Refusal :=
  match i with
  | .sendByte b => Sys2Proof.Machine.execSendByte b s
  | .sendParam tag value => Sys2Proof.Machine.execSendParam tag value s
  | .readByte => Sys2Proof.Machine.execReadByte s
  | .bytesAvailable => Sys2Proof.Machine.execBytesAvailable s
  | .idleReturn => Sys2Proof.Machine.execIdleReturn s
  | .setPulseDuration d => Sys2Proof.Machine.execSetPulseDuration d s
  | .setPulseFrequency f => Sys2Proof.Machine.execSetPulseFrequency f s
  | .startRaster addr len => Sys2Proof.Machine.execStartRaster addr len s
  | .setAir v => Sys2Proof.Machine.execSetAir v s
  | .setAux1 v => Sys2Proof.Machine.execSetAux1 v s
  | .setAux2 v => Sys2Proof.Machine.execSetAux2 v s
  | .readDoor => Sys2Proof.Machine.execReadDoor s
  | .readChiller => Sys2Proof.Machine.execReadChiller s
  | .readLimit k => Sys2Proof.Machine.execReadLimit k s
  | .initDone => Sys2Proof.Machine.execInitDone s
  | .rbPush r b => Sys2Proof.Machine.execRbPush r b s
  | .rbPop r => Sys2Proof.Machine.execRbPop r s
  | .rbIsEmpty r => Sys2Proof.Machine.execRbIsEmpty r s
  | .rbIsFull r => Sys2Proof.Machine.execRbIsFull r s
  | .rbLen r => Sys2Proof.Machine.execRbLen r s
  | .evRx => Sys2Proof.Machine.execEvRx s
  | .evTxReady => Sys2Proof.Machine.execEvTxReady s
  | .evTick => Sys2Proof.Machine.execEvTick s
  | .rxArrive b => Sys2Proof.Machine.execRxArrive b s
  | .txDone => Sys2Proof.Machine.execTxDone s
  | .tick => Sys2Proof.Machine.execTick s
  | .inputSet line v => Sys2Proof.Machine.execInputSet line v s
  | .memWrite addr v => Sys2Proof.Machine.execMemWrite addr v s
  | .rxReset => Sys2Proof.Machine.execRxReset s
  | .rxStop => Sys2Proof.Machine.execRxStop s
  | .rxResume => Sys2Proof.Machine.execRxResume s
  | .rxStatus => Sys2Proof.Machine.execRxStatus s
  | .rxSuperstatus => Sys2Proof.Machine.execRxSuperstatus s
  | .rxInvalidMarker l => Sys2Proof.Machine.execRxInvalidMarker l s
  | .rxPayload l => Sys2Proof.Machine.execRxPayload l s
  | .txAck => Sys2Proof.Machine.execTxAck s
  | .txStatusEnd => Sys2Proof.Machine.execTxStatusEnd s
  | .txParamValue g => Sys2Proof.Machine.execTxParamValue g s
  | .txParamTag tag => Sys2Proof.Machine.execTxParamTag tag s
  | .txRaw b => Sys2Proof.Machine.execTxRaw b s

end Sys2Proof.Machine
end

