-- ==== Sys2Proof/Machine/Fetch.lean ====
section
/-! DEFINITION. Taking the next choice from the script (log 1). The block fetches no instructions (00_scope.md R7,
10_state.md R63): the sequence of host operations, environment events and scheduler choices is its program. -/

namespace Sys2Proof.Machine

/-- The instructions that are whole transitions of R280: host operations, handler activations and ENV events. The others
are steps inside one (log 4). -/
def isTransition (i : Instr) : Bool := formatOf i == .op || formatOf i == .ev

/-- What the next line of the script asks for. -/
inductive Fetched where
  /-- the script is empty -/
  | nothing
  /-- `RUN MAIN` -/
  | runMain (s : State)
  /-- an instruction, and the state with its line taken off the script -/
  | instr (i : Instr) (s : State)
  /-- an instruction that is no transition of R280, asked for off the bench, and the state with its line taken off -/
  | inner (s : State)
  /-- bytes that are no instruction of their domain, and the state with the line taken off -/
  | reject (e : DecodeError) (s : State)
deriving DecidableEq, Repr

/-- The state with another script. -/
def State.withScript (s : State) (script : List Input) : State := { s with script := script }

/-- Take the next line off the script and decode it in its own domain; bytes after the instruction are ignored (log 20).
Off the bench only the transitions of R280 are run (log 4). -/
def fetch (s : State) : Fetched :=
  match s.script with
  | [] => .nothing
  | .runMain :: rest => .runMain (s.withScript rest)
  | .code f bytes :: rest =>
    match decode f bytes with
    | .instr i _ =>
      if isTransition i || s.bench then .instr i (s.withScript rest) else .inner (s.withScript rest)
    | .reject e => .reject e (s.withScript rest)

/-- A step with nothing chosen: a quiescent state stays quiescent (R301, R302), any other waits for a choice (log 1). -/
def awaitChoice (s : State) : Result := guardLive s (.refused .scriptExhausted)

/-- A unit that is a step inside a transition, off the bench: R280 has no such step (log 4). -/
def refuseInner (s : State) : Result := guardLive s (.refused .notATransition)

/-- What an instruction needs of the state besides its line, so that the scheduler can take it: a handler's enabled
condition (R282 to R284), an event's admission (R285 to R287), a pending acknowledgment (R214). For
`State.withFetchWord` alone (log 3). -/
def enableFor (i : Option Instr) (s : State) : State :=
  match i with
  | some .evRx => { s with gie := true, uart := { s.uart with rxFull := true } }
  | some .evTxReady => { s with gie := true, txie := true, uart := { s.uart with txFree := true } }
  | some .evTick => { s with gie := true, tickPending := true }
  | some (.rxArrive _) => { s with gie := true }
  | some .tick => { s with gie := true }
  | some .txDone => { s with uart := { s.uart with txFree := false } }
  | some .txAck => if s.fc.pendingAcks = 0 then { s with fc := { s.fc with pendingAcks := 1 } } else s
  | _ => s

/-- The bench, for an instruction that is no transition of its own. For `State.withFetchWord` alone (log 4). -/
def benchFor (i : Option Instr) (s : State) : State :=
  match i with
  | some j => if isTransition j then s else { s with bench := true }
  | none => s

/-- Put a line in front of the script. -/
def State.withInput (s : State) (i : Input) : State := s.withScript (i :: s.script)

end Sys2Proof.Machine
end

