-- ==== Sys2Proof/Machine/Step.lean ====
section
/-! DEFINITION. One step (60_exceptions.md R280): the transition the next line of the script chooses. -/

namespace Sys2Proof.Machine

/-- One step of the machine: take the next line of the script and run the transition it names. -/
def step (s : State) : Host.Outcome State Fault Refusal :=
  match fetch s with
  | .nothing => awaitChoice s
  | .runMain t => mainStep t
  | .instr i t => exec i t
  | .inner t => refuseInner t
  | .reject e t => rejectUnit e t

/-- The state whose next step runs the instruction of a table word: its unit stands first in the script, and the scheduler
may take it (logs 1, 3), on the bench if it is a step inside a transition (log 4). -/
def State.withFetchWord (s : State) (nbits w : Nat) : State :=
  (benchFor (decodeTableWord nbits w) (enableFor (decodeTableWord nbits w) s)).withInput (tableInput nbits w)

end Sys2Proof.Machine
end

