-- ==== Sys2Proof/Machine/Script.lean ====
section
/-! DEFINITION. The agents (00_scope.md R8), which agent takes an instruction (40_ringbuffer.md R158), and the script lines and
pseudo-operations of 30_encoding.md R134 and R135 as inputs of the machine. The text of a line is
read in Machine/ScriptText.lean (log 24). -/

namespace Sys2Proof.Machine

/-- R8: who takes a step. -/
inductive Agent where
  | main
  | rxi
  | txi
  | tmi
  | env
deriving DecidableEq, Repr

/-- The agent that takes an instruction: R8 and R62; for the pushes, the pops and the tests of a ring the agent that R158
names, and RXI for the full test of the RX ring (R31, R32). `RB_LEN` is read by no agent that a rule names: MAIN on both
instances is a DESIGN CHOICE (log 26). -/
def agentOf : Instr → Agent
  | .sendByte _ | .sendParam _ _ | .readByte | .bytesAvailable | .idleReturn | .setPulseDuration _
  | .setPulseFrequency _ | .startRaster _ _ | .setAir _ | .setAux1 _ | .setAux2 _ | .readDoor | .readChiller
  | .readLimit _ | .initDone => .main
  | .rbPush .rx _ => .rxi
  | .rbPush .tx _ => .main
  | .rbPop .rx => .main
  | .rbPop .tx => .txi
  | .rbIsEmpty .rx => .main
  | .rbIsEmpty .tx => .txi
  | .rbIsFull .rx => .rxi
  | .rbIsFull .tx => .main
  | .rbLen _ => .main
  | .evRx => .rxi
  | .evTxReady => .txi
  | .evTick => .tmi
  | .rxArrive _ | .txDone | .tick | .inputSet _ _ | .memWrite _ _ => .env
  | .rxReset | .rxStop | .rxResume | .rxStatus | .rxSuperstatus | .rxInvalidMarker _ | .rxPayload _ => .rxi
  | .txAck => .txi
  | .txStatusEnd | .txParamValue _ | .txParamTag _ | .txRaw _ => .main

/-- R134: the lines of a script. -/
inductive Line where
  /-- `<MNEMONIC> operands`: a host operation -/
  | issue (i : Instr)
  /-- `RX <byte>` -/
  | rx (b : Byte)
  /-- `TXDONE` -/
  | txDone
  /-- `TICK` -/
  | tick
  /-- `RUN RXI` -/
  | runRxi
  /-- `RUN TXI` -/
  | runTxi
  /-- `RUN TMI` -/
  | runTmi
  /-- `RUN MAIN` -/
  | runMain
  /-- `IN <line> <0|1>` -/
  | inputLine (line : InputLine) (v : Bool)
  /-- `MEM <addr> <byte> ...`: consecutive bytes -/
  | mem (addr : Addr) (bytes : List Byte)
deriving DecidableEq, Repr

/-- R134: `MEM_WRITE` of consecutive bytes. R134 does not say what follows address 0xFFFF; going on at 0 is a DESIGN CHOICE
(log 27). -/
def memInputs (addr : Addr) : List Byte → List Input
  | [] => []
  | v :: rest => (Instr.memWrite addr v).input :: memInputs (addr + 1) rest

/-- R134: the inputs a line stands for. -/
def Line.inputs : Line → List Input
  | .issue i => [i.input]
  | .rx b => [(Instr.rxArrive b).input]
  | .txDone => [Instr.txDone.input]
  | .tick => [Instr.tick.input]
  | .runRxi => [Instr.evRx.input]
  | .runTxi => [Instr.evTxReady.input]
  | .runTmi => [Instr.evTick.input]
  | .runMain => [.runMain]
  | .inputLine line v => [(Instr.inputSet line v).input]
  | .mem addr bytes => memInputs addr bytes

/-- A script of lines as inputs. -/
def scriptOf (lines : List Line) : List Input := lines.flatMap Line.inputs

/-- R135 `RXL <L>`: send one logical byte. -/
def rxLogical (l : Byte) : List Line := [.rx l, .runRxi, .rx l, .runRxi]

/-- R135 `RXRESET`. -/
def rxResetLines : List Line := [.rx Config.codeReset, .runRxi]

/-- R135 `TICKS <n>`. -/
def ticksLines (n : Nat) : List Line := (List.replicate n [Line.tick, Line.runTmi]).flatten

/-- R135 `TXALL`: one activation and one `TXDONE` for each byte that waits to be sent. -/
def txAllLines (s : State) : List Line :=
  (List.replicate (s.fc.pendingAcks.toNat + s.tx.length) [Line.runTxi, Line.txDone]).flatten

end Sys2Proof.Machine
end

