-- ==== Sys2Proof/Safety.lean ====
section
/-! DEFINITION. What counts as a good state: the well-formedness of 10_state.md R67, the arming law of its last clause, the
final states of 60_exceptions.md R309, and reachability. -/

namespace Sys2Proof.Machine

/-- R67 without its arming clause, with the form of memory (log 9) and the consistency of the UART and of the mainline that
R53, R54, R56 and R285 describe: indices in range, `consumed` below a chunk, `pending_acks` within its limit, the cursor at
or below the end, memory canonical, an overrun only beside a waiting byte, `in_idle` only in READING, a nested operation
only inside a callback. -/
abbrev State.Inv (s : State) : Prop :=
  s.rx.valid ∧ s.tx.valid ∧ s.fc.consumed.toNat < Config.chunkSize ∧
  s.fc.pendingAcks.toNat ≤ Config.pendingAcksMax ∧ s.pe.cursor.toNat ≤ s.pe.sentinel.toNat ∧
  Memory.wf s.mem = true ∧ (s.uart.rxOvr = true → s.uart.rxFull = true) ∧
  (s.main.inIdle = true → s.main.mode = .reading) ∧ (s.main.nested ≠ .idle → s.main.inIdle = true)

/-- R67, last clause: the transmit-ready source is armed exactly when there is something to send. -/
abbrev State.armed (s : State) : Prop :=
  s.txie = true ↔ (s.tx.isEmpty = false ∨ s.fc.pendingAcks ≠ 0)

/-- R191: the host may issue an operation into this slot. -/
abbrev State.admits (s : State) (slot : SlotId) : Prop :=
  s.live ∧
    match slot with
    | .top => s.main.mode = .idle
    | .nested => s.main.mode = .reading ∧ s.main.inIdle = true ∧ s.main.nested = .idle

/-- R170, R171: the state after the entry of a receive activation: the data register is free, and an overrun has requested
its stop. -/
def State.afterRxEntry (s : State) : State :=
  { s with
    uart := { s.uart with rxFull := false, rxOvr := false }
    trace := if s.uart.rxOvr then s.trace ++ [.stopReq (Config.stopCode .usartOverrun)] else s.trace }

/-- A command of a sequence of pushes and pops (R155, R156). -/
inductive RingCmd where
  | push (b : Byte)
  | pop
deriving DecidableEq, Repr

/-- R156: a sequence of pushes and pops on one ring: the bytes accepted, the bytes popped, the ring after it. -/
def ringRun {C : Nat} : List RingCmd → RingBuf C → List Byte × List Byte × RingBuf C
  | [], r => ([], [], r)
  | .push b :: cmds, r =>
    match r.push b with
    | some q => ((b :: (ringRun cmds q).1), (ringRun cmds q).2.1, (ringRun cmds q).2.2)
    | none => ringRun cmds r
  | .pop :: cmds, r =>
    match r.pop with
    | some (b, q) => ((ringRun cmds q).1, b :: (ringRun cmds q).2.1, (ringRun cmds q).2.2)
    | none => ringRun cmds r

/-- R239: the levels of a period of `n` ticks whose pulse has width `w`: high for `w` ticks, then low. -/
def periodLevels (n w : Nat) : List Bool := List.replicate (min w n) true ++ List.replicate (n - w) false

/-- The outcome of `n` steps, stopping at the first that answers no next state. -/
def stepsRun : Nat → State → Result
  | 0, s => .next s
  | n + 1, s =>
    match step s with
    | .next t => stepsRun n t
    | .fault f => .fault f
    | .refused r => .refused r

/-- R309: the end of a run of a finite script. -/
abbrev State.final (s : State) : Prop :=
  s.script = [] ∧ s.main = { mode := .idle, inIdle := false, nested := .idle } ∧ s.uart.rxFull = false ∧
  ¬(s.txie = true ∧ s.uart.txFree = true) ∧ s.tickPending = false ∧ s.uart.txFree = true ∧ s.faults = [] ∧
  s.refused = false

/-- The states a run from reset can be in, whatever the host, the environment and the scheduler choose (R280, R342). -/
inductive Reachable : State → Prop where
  | start (script : List Input) : Reachable (State.reset.withScript script)
  | step (s t : State) : Reachable s → Machine.step s = .next t → Reachable t

end Sys2Proof.Machine
end

