-- ==== Sys2Proof/Certificates/Slice0/Obligations.lean ====
section
/-! DEFINITION. The statements for the provers: what the rules of spec/ say the block does, over every state. -/

open Sys2Proof Sys2Proof.Machine

/-! ## Steps, decoding and encoding -/

/-- R280: a step whose next line decodes to a well-formed instruction that is a whole transition (a host operation, a
handler activation or an ENV event) is exec of that instruction, with the line taken off the script (log 1: the script
is the model's own). A row that is a step inside a transition is run so on the bench alone; off it there is no such
step, and the outcome's name is the model's choice (log 4). -/
def Obligations.StepRunsDecodedInstruction : Prop :=
  ∀ (s : State) (f : Format) (bytes more : List Byte) (rest : List Input) (i : Instr),
    s.script = .code f bytes :: rest → decode f bytes = .instr i more → i.wellFormed = true →
    (isTransition i = true ∨ s.bench = true → step s = exec i (s.withScript rest)) ∧
    (isTransition i = false → s.bench = false → s.live → step s = .refused .notATransition)

/-- The other lines: `RUN MAIN` is MAIN's continuation step, a unit its domain's decoder rejects is refused with the
decoder's reason, an empty script has no step (logs 1, 15). -/
def Obligations.StepWithoutInstruction : Prop :=
  (∀ (s : State) (rest : List Input), s.script = .runMain :: rest → step s = mainStep (s.withScript rest)) ∧
  (∀ (s : State) (f : Format) (bytes : List Byte) (rest : List Input) (e : DecodeError),
    s.live → s.script = .code f bytes :: rest → decode f bytes = .reject e →
    step s = .next ((s.withScript rest).recordRefusal (refuseReasonOf e))) ∧
  (∀ s : State, s.live → s.script = [] → step s = .refused .scriptExhausted)

/-- Words written out from 30_encoding.md R114, R120, R129, R131, R132 decode to what they stand for (the byte layout of
operands is the model's, log 2). -/
def Obligations.DecodeSampleWords : Prop :=
  decode .op [0b00000001, 0x3F] = .instr (.sendByte 0x3F) [] ∧
  decode .op [0b00010010, 0x00, 0x01, 0x03, 0x00] = .instr (.startRaster 0x0100 0x0003) [] ∧
  decode .op [0b00101010, 0x05] = .instr (.readLimit 5) [] ∧
  decode .rb [0b01000000, 0x01, 0x41] = .instr (.rbPush .tx 0x41) [] ∧
  decode .rb [0b01000000, 0x02, 0x41] = .reject .operandType ∧
  decode .ev [0b10010000, 0x41] = .instr (.rxArrive 0x41) [] ∧
  decode .ev [0b10000010] = .instr .evTick [] ∧
  decode .wrx [0b00000111] = .instr .rxReset [] ∧
  decode .wrx [0b00011111] = .instr (.rxInvalidMarker 0x1F) [] ∧
  decode (.wtx .sendParam) [0b11011100] = .instr (.txParamValue 0x5C) [] ∧
  decode .op [0b00010011] = .reject .unknownSelector

/-- R113: a logical byte's class, in the rule's priority order; when the handler dispatches it, a sub-printable byte is
never buffered, and one that is none of the four codes requests the stop of an invalid marker. -/
def Obligations.InboundClassesByPriority : Prop :=
  ∀ (l : Byte) (s : State),
    (l.toNat < Config.printableMin → (rxDispatch l s).rx = s.rx) ∧
    (l ≠ Config.codeStop → l ≠ Config.codeResume → l ≠ Config.codeStatus → l ≠ Config.codeSuperstatus →
      l.toNat < Config.printableMin →
      rxDispatch l s = { s with trace := s.trace ++ [.stopReq (Config.stopCode .invalidMarker)] }) ∧
    (l = Config.codeStop → decodeLogical l = .rxStop) ∧
    (l = Config.codeResume → decodeLogical l = .rxResume) ∧
    (l = Config.codeStatus → decodeLogical l = .rxStatus) ∧
    (l = Config.codeSuperstatus → decodeLogical l = .rxSuperstatus) ∧
    (l ≠ Config.codeStop → l ≠ Config.codeResume → l ≠ Config.codeStatus → l ≠ Config.codeSuperstatus →
      l.toNat < Config.printableMin → decodeLogical l = .rxInvalidMarker l) ∧
    (Config.printableMin ≤ l.toNat → decodeLogical l = .rxPayload l)

/-- Decoding an encoded well-formed instruction gives it back, whatever bytes follow (R110, R128; the byte layout of
operands is the model's, log 2). -/
def Obligations.DecodeInvertsEncode : Prop :=
  ∀ (i : Instr) (rest : List Byte), i.wellFormed = true → decode (formatOf i) (encode i ++ rest) = .instr i rest

/-- What decodes is well formed, of the domain it was read in, and encodes to the bytes that were read (R110, R133; the
byte layout of operands is the model's, log 2). -/
def Obligations.EncodeInvertsDecode : Prop :=
  ∀ (f : Format) (bytes rest : List Byte) (i : Instr), decode f bytes = .instr i rest →
    i.wellFormed = true ∧ formatOf i = f ∧ bytes = encode i ++ rest

/-! ## Reset and invariants -/

/-- The reset values that 10_state.md R66 gives, every one of its table but the fields it marks "any value"
(which the spec marks as its own decision D16). -/
def Obligations.ResetState : Prop :=
  let s := State.reset
  s.rx.head = 0 ∧ s.rx.tail = 0 ∧ s.tx.head = 0 ∧ s.tx.tail = 0 ∧ s.dup.expectFirst = true ∧
  s.fc = { consumed := 0, pendingAcks := 0 } ∧ s.txie = false ∧
  s.pe = { frequency := 0, timer := 0, duration := 0, remaining := 0, cursor := 0, sentinel := 0 } ∧
  s.laserOut = false ∧ s.outp = { air := false, aux1 := false, aux2 := false } ∧
  s.uart.rxFull = false ∧ s.uart.rxOvr = false ∧ s.uart.txFree = true ∧
  s.main = { mode := .idle, inIdle := false, nested := .idle } ∧ s.tickPending = false ∧ s.gie = false ∧
  s.faults = [] ∧ s.trace = [] ∧ s.refused = false

/-- The invariants hold at reset, whatever the script. -/
def Obligations.ResetMeetsInvariants : Prop :=
  ∀ script : List Input, (State.reset.withScript script).Inv ∧ (State.reset.withScript script).armed

/-- Every step keeps the well-formedness of 10_state.md R67 (and what State.Inv adds to it: the model's form of
memory, log 9, and the consistency of the UART and of the mainline, R53, R54, R56), and no step goes on or off the
bench (log 4). -/
def Obligations.StepKeepsInvariant : Prop :=
  ∀ s t : State, s.Inv → step s = .next t → t.Inv ∧ t.bench = s.bench

/-- R67, R280: every state of every run from reset is well formed, its transmit-ready source is armed exactly while
there is something to send, and no run is on the bench (log 4), so that each of its steps is one of the four kinds of
R280. -/
def Obligations.ReachableStatesMeetInvariant : Prop :=
  ∀ s : State, Reachable s → s.Inv ∧ s.armed ∧ s.bench = false

/-- R67, last clause: every transition of R280 keeps the transmit-ready source armed exactly while there is something to
send. (The steps inside a transition, run alone, need not: log 4.) -/
def Obligations.TransitionsKeepArming : Prop :=
  (∀ (i : Instr) (s t : State), isTransition i = true → s.armed → exec i s = .next t → t.armed) ∧
  (∀ s t : State, s.armed → mainStep s = .next t → t.armed)

/-! ## The ring-buffer controller -/

/-- R150 (selector 0x40): a push onto a ring with legal indices is `Full` exactly when the next head is the tail; else
it writes the old head's slot and advances the head modulo the capacity, and nothing else. -/
def Obligations.RingPushWritesHead : Prop :=
  ∀ (C : Nat) (r : RingBuf C) (i : RingId) (b : Byte), C ≤ 255 → r.valid →
    (encode (.rbPush i b)).head? = some 0x40 ∧
    (r.push b = none ↔ (r.head.toNat + 1) % C = r.tail.toNat) ∧
    (∀ q, r.push b = some q →
      q.head.toNat = (r.head.toNat + 1) % C ∧ q.tail = r.tail ∧ q.slotAt r.head = b ∧
      ∀ j : Byte, j ≠ r.head → q.slotAt j = r.slotAt j)

/-- R151 (selector 0x41): a pop from a ring with legal indices is `None` exactly when head and tail agree; else it
returns the old tail's slot and advances the tail modulo the capacity, and nothing else. -/
def Obligations.RingPopReadsTail : Prop :=
  ∀ (C : Nat) (r : RingBuf C) (i : RingId), C ≤ 255 → r.valid →
    (encode (.rbPop i)).head? = some 0x41 ∧
    (r.pop = none ↔ r.head = r.tail) ∧
    (∀ b q, r.pop = some (b, q) →
      b = r.slotAt r.tail ∧ q.tail.toNat = (r.tail.toNat + 1) % C ∧ q.head = r.head ∧ q.slot = r.slot)

/-- R154 to R156: a push appends to the items held, a pop takes the oldest, their number is `RB_LEN`, at most C - 1, 0
exactly when empty and C - 1 exactly when full. -/
def Obligations.RingHoldsItems : Prop :=
  ∀ (C : Nat) (r : RingBuf C), 2 ≤ C → C ≤ 255 → r.valid →
    r.contents.length = r.len.toNat ∧ r.len.toNat ≤ C - 1 ∧
    (r.isEmpty = true ↔ r.contents = []) ∧ (r.isFull = true ↔ r.contents.length = C - 1) ∧
    (∀ b q, r.push b = some q → q.valid ∧ q.contents = r.contents ++ [b]) ∧
    (∀ b q, r.pop = some (b, q) → q.valid ∧ r.contents = b :: q.contents)

/-- R156: over any sequence of pushes and pops, the bytes popped and then the bytes still held are the bytes held at first
and then the bytes accepted, in order; at most C - 1 are held. -/
def Obligations.RingIsFifo : Prop :=
  ∀ (C : Nat) (r : RingBuf C) (cmds : List RingCmd), 2 ≤ C → C ≤ 255 → r.valid →
    (ringRun cmds r).2.1 ++ (ringRun cmds r).2.2.contents = r.contents ++ (ringRun cmds r).1 ∧
    (ringRun cmds r).2.2.contents.length ≤ C - 1

/-- R150 to R154 as instructions of their own (log 4) on either instance: the effect of the command, its answer in the
result field (log 5),
and nothing else. -/
def Obligations.RingCommandsComplete : Prop :=
  ∀ (s : State) (b : Byte), s.live →
    (∀ q, s.rx.push b = some q → exec (.rbPush .rx b) s = .next { s with rx := q, rbResult := some .ok }) ∧
    (s.rx.push b = none → exec (.rbPush .rx b) s = .next { s with rbResult := some .full }) ∧
    (∀ q, s.tx.push b = some q → exec (.rbPush .tx b) s = .next { s with tx := q, rbResult := some .ok }) ∧
    (s.tx.push b = none → exec (.rbPush .tx b) s = .next { s with rbResult := some .full }) ∧
    (∀ c q, s.rx.pop = some (c, q) → exec (.rbPop .rx) s = .next { s with rx := q, rbResult := some (.item c) }) ∧
    (s.rx.pop = none → exec (.rbPop .rx) s = .next { s with rbResult := some .none }) ∧
    (∀ c q, s.tx.pop = some (c, q) → exec (.rbPop .tx) s = .next { s with tx := q, rbResult := some (.item c) }) ∧
    (s.tx.pop = none → exec (.rbPop .tx) s = .next { s with rbResult := some .none }) ∧
    exec (.rbIsEmpty .rx) s = .next { s with rbResult := some (.flag (decide (s.rx.head = s.rx.tail))) } ∧
    exec (.rbIsEmpty .tx) s = .next { s with rbResult := some (.flag (decide (s.tx.head = s.tx.tail))) } ∧
    exec (.rbIsFull .rx) s = .next { s with rbResult := some (.flag s.rx.isFull) } ∧
    exec (.rbIsFull .tx) s = .next { s with rbResult := some (.flag s.tx.isFull) } ∧
    exec (.rbLen .rx) s = .next { s with rbResult := some (.len s.rx.len) } ∧
    exec (.rbLen .tx) s = .next { s with rbResult := some (.len s.tx.len) }

/-! ## The receive path -/

/-- R170 to R172: an activation that reads the reset code. -/
def Obligations.EvRxProtocolReset : Prop :=
  ∀ s : State, s.live → s.gie = true → s.uart.rxFull = true → s.uart.rxData = Config.codeReset →
    exec .evRx s = .next { s.afterRxEntry with
      dup := { s.dup with expectFirst := true }, fc := { s.fc with consumed := 0 } }

/-- R173: an activation that reads a first copy holds it. -/
def Obligations.EvRxHoldsFirstCopy : Prop :=
  ∀ s : State, s.live → s.gie = true → s.uart.rxFull = true → s.uart.rxData ≠ Config.codeReset →
    s.dup.expectFirst = true →
    exec .evRx s = .next { s.afterRxEntry with dup := { expectFirst := false, prev := s.uart.rxData } }

/-- R174: an activation that reads a second copy that differs requests a stop and delivers nothing. -/
def Obligations.EvRxMismatch : Prop :=
  ∀ s : State, s.live → s.gie = true → s.uart.rxFull = true → s.uart.rxData ≠ Config.codeReset →
    s.dup.expectFirst = false → s.uart.rxData ≠ s.dup.prev →
    exec .evRx s = .next { s.afterRxEntry with
      dup := { s.dup with expectFirst := true }
      trace := s.afterRxEntry.trace ++ [.stopReq (Config.stopCode .transmissionError)] }

/-- R175 to R178: the second copy of a control code invokes its handler, and nothing is buffered. -/
def Obligations.EvRxControlCodes : Prop :=
  ∀ (s : State) (code : Byte) (k : CtrlKind), s.live → s.gie = true → s.uart.rxFull = true →
    s.uart.rxData = code → s.dup.expectFirst = false → s.dup.prev = code →
    (code, k) ∈ [(Config.codeStop, CtrlKind.stop), (Config.codeResume, .resume), (Config.codeStatus, .status),
      (Config.codeSuperstatus, .superstatus)] →
    exec .evRx s = .next { s.afterRxEntry with
      dup := { s.dup with expectFirst := true }, trace := s.afterRxEntry.trace ++ [.ctrl k] }

/-- R179: the second copy of any other byte below `PRINTABLE_MIN` requests a stop. -/
def Obligations.EvRxInvalidMarker : Prop :=
  ∀ s : State, s.live → s.gie = true → s.uart.rxFull = true → isInvalidMarker s.uart.rxData = true →
    s.dup.expectFirst = false → s.dup.prev = s.uart.rxData →
    exec .evRx s = .next { s.afterRxEntry with
      dup := { s.dup with expectFirst := true }
      trace := s.afterRxEntry.trace ++ [.stopReq (Config.stopCode .invalidMarker)] }

/-- R180: the second copy of a payload byte is pushed into the RX ring, or dropped with a stop request while it is full.
-/
def Obligations.EvRxPayload : Prop :=
  ∀ s : State, s.live → s.gie = true → s.uart.rxFull = true → Config.printableMin ≤ s.uart.rxData.toNat →
    s.dup.expectFirst = false → s.dup.prev = s.uart.rxData →
    (∀ q, s.rx.push s.uart.rxData = some q →
      exec .evRx s = .next { s.afterRxEntry with dup := { s.dup with expectFirst := true }, rx := q }) ∧
    (s.rx.push s.uart.rxData = none →
      exec .evRx s = .next { s.afterRxEntry with
        dup := { s.dup with expectFirst := true }
        trace := s.afterRxEntry.trace ++ [.stopReq (Config.stopCode .rxBufferOverflow)] })

/-- R172, R175 to R180 as instructions: each inbound class has exactly its own rule's writes (log 4). -/
def Obligations.ReceiveClassesComplete : Prop :=
  ∀ (s : State) (l : Byte), s.live →
    exec .rxReset s = .next { s with dup := { s.dup with expectFirst := true }, fc := { s.fc with consumed := 0 } } ∧
    exec .rxStop s = .next { s with trace := s.trace ++ [.ctrl .stop] } ∧
    exec .rxResume s = .next { s with trace := s.trace ++ [.ctrl .resume] } ∧
    exec .rxStatus s = .next { s with trace := s.trace ++ [.ctrl .status] } ∧
    exec .rxSuperstatus s = .next { s with trace := s.trace ++ [.ctrl .superstatus] } ∧
    (isInvalidMarker l = true → exec (.rxInvalidMarker l) s =
      .next { s with trace := s.trace ++ [.stopReq (Config.stopCode .invalidMarker)] }) ∧
    (Config.printableMin ≤ l.toNat → ∀ q, s.rx.push l = some q → exec (.rxPayload l) s = .next { s with rx := q }) ∧
    (Config.printableMin ≤ l.toNat → s.rx.push l = none → exec (.rxPayload l) s =
      .next { s with trace := s.trace ++ [.stopReq (Config.stopCode .rxBufferOverflow)] })

/-- R182 items 1 to 3, as scripts (log 1): from any live state whose receiver is idle, the reset code and then any x but
the reset code, twice, deliver exactly one logical byte x: a control code invokes its handler, another sub-printable
byte requests the stop of an invalid marker, a payload byte is pushed, or dropped with a stop request while the RX ring
is full. The reset code and then x and a different y, neither the reset code, deliver nothing and request one stop. -/
def Obligations.DuplicateDetectorLaws : Prop :=
  ∀ (s : State) (rest : List Input) (x y : Byte), s.live → s.gie = true → s.uart.rxFull = false → s.uart.rxOvr = false →
    x ≠ Config.codeReset →
    let twice := stepsRun 6 (s.withScript (scriptOf (rxResetLines ++ rxLogical x) ++ rest))
    let after (data : Byte) : State :=
      { s with
        script := rest, dup := { expectFirst := true, prev := x }, fc := { s.fc with consumed := 0 }
        uart := { s.uart with rxData := data } }
    (∀ k, (x, k) ∈ [(Config.codeStop, CtrlKind.stop), (Config.codeResume, .resume), (Config.codeStatus, .status),
        (Config.codeSuperstatus, .superstatus)] →
      twice = .next { after x with trace := s.trace ++ [.ctrl k] }) ∧
    (isInvalidMarker x = true →
      twice = .next { after x with trace := s.trace ++ [.stopReq (Config.stopCode .invalidMarker)] }) ∧
    (∀ q, Config.printableMin ≤ x.toNat → s.rx.push x = some q → twice = .next { after x with rx := q }) ∧
    (Config.printableMin ≤ x.toNat → s.rx.push x = none →
      twice = .next { after x with trace := s.trace ++ [.stopReq (Config.stopCode .rxBufferOverflow)] }) ∧
    (x ≠ y → y ≠ Config.codeReset →
      stepsRun 6 (s.withScript (scriptOf (rxResetLines ++ [.rx x, .runRxi, .rx y, .runRxi]) ++ rest)) =
        .next { after y with trace := s.trace ++ [.stopReq (Config.stopCode .transmissionError)] })

/-! ## The transmit side -/

/-- R193, R194 (selector 0x01; the byte layout of the operand is the model's, log 2): `SEND_BYTE` enqueues its byte and
arms the transmit-ready source. With a full TX ring it waits in its slot with the byte and writes nothing else: MAIN has
no step then (an outcome the model names, log 7), and as soon as the ring has room, MAIN's step enqueues the byte, in
either slot. -/
def Obligations.SendByteEnqueuesOrWaits : Prop :=
  ∀ (s : State) (slot : SlotId) (b : Byte), s.admits slot →
    encode (.sendByte b) = [0x01, b] ∧
    (∀ q, s.tx.push b = some q → exec (.sendByte b) s = .next { s with tx := q, txie := true }) ∧
    (s.tx.push b = none →
      exec (.sendByte b) s = .next { s with main := s.main.setSlot slot [b] } ∧
      mainStep { s with main := s.main.setSlot slot [b] } = .refused .notEnabled ∧
      ∀ r q, r.push b = some q →
        mainStep { s with main := s.main.setSlot slot [b], tx := r } = .next { s with tx := q, txie := true })

/-- The outbound classes that the host or `SEND_PARAM` creates are enqueued, or wait, as `SEND_BYTE` does it (R120, R122,
R193; log 22). -/
def Obligations.OutboundClassesEnqueue : Prop :=
  ∀ (s : State) (slot : SlotId) (raw : Byte) (g tag : BitVec 7) (i : Instr) (b : Byte), s.admits slot →
    (i, b) ∈ [(Instr.txRaw raw, raw), (.txStatusEnd, Config.codeStatusEnd), (.txParamValue g, paramValueByte g),
      (.txParamTag tag, paramTagByte tag)] →
    (∀ q, s.tx.push b = some q → exec i s = .next { s with tx := q, txie := true }) ∧
    (s.tx.push b = none → slot = .top → exec i s = .next { s with main := { s.main with mode := .sending b [] } }) ∧
    (s.tx.push b = none → slot = .nested → exec i s = .next { s with main := { s.main with nested := .sending b [] } })

/-- R196: `SEND_PARAM` with a 7-bit tag and a value in range enqueues the first byte of its frame and keeps the other four
in its slot, or keeps all five while the TX ring is full. -/
def Obligations.SendParamStartsFrame : Prop :=
  ∀ (s : State) (slot : SlotId) (tag : Byte) (value : F64), s.admits slot → tag.getLsbD 7 = false →
    paramInRange value = true →
    (∀ q, s.tx.push (paramFirst value) = some q → exec (.sendParam tag value) s =
      .next { s with tx := q, txie := true, main := s.main.setSlot slot (paramRest tag value) }) ∧
    (s.tx.push (paramFirst value) = none → exec (.sendParam tag value) s =
      .next { s with main := s.main.setSlot slot (paramFirst value :: paramRest tag value) })

/-- R196: a tag with bit 7 set is refused; a value out of range, or not a number, with a 7-bit tag faults. -/
def Obligations.SendParamRejects : Prop :=
  ∀ (s : State) (slot : SlotId) (tag : Byte) (value : F64), s.admits slot →
    (tag.getLsbD 7 = true → exec (.sendParam tag value) s = .next { s with refused := true, refuseReason := some .tagNot7Bit }) ∧
    (tag.getLsbD 7 = false → paramInRange value = false →
      exec (.sendParam tag value) s = .next { s with faults := [.paramOutOfRange] })

/-- R196: the range test is the numerical one, between the binary64 bounds; infinities and NaN are out of range
(binary64 is presumed, log 16). The bounds lie within half a unit in the last place, 2^-36, of -134217.728 and
134217.727 (R13): no binary64 is nearer. -/
def Obligations.ParamRangeIsNumeric : Prop :=
  (∀ v : F64, paramInRange v = true ↔
    f64Finite v = true ∧ f64Value paramLow ≤ f64Value v ∧ f64Value v ≤ f64Value paramHigh) ∧
  |f64Value paramLow + 134217728 / 1000| ≤ 1 / 2 ^ 36 ∧ |f64Value paramHigh - 134217727 / 1000| ≤ 1 / 2 ^ 36

/-- R197: both roundings go to a nearest integer; the binary64 one takes the even integer on a tie, the integer one the
integer farther from zero (binary64 is presumed, log 16). -/
def Obligations.ParamRoundingIsNearest : Prop :=
  (∀ x k : Nat,
    2 * x ≤ 2 * roundTiesEven x k * 2 ^ k + 2 ^ k ∧ 2 * roundTiesEven x k * 2 ^ k ≤ 2 * x + 2 ^ k ∧
    ((2 * x = 2 * roundTiesEven x k * 2 ^ k + 2 ^ k ∨ 2 * roundTiesEven x k * 2 ^ k = 2 * x + 2 ^ k) → 1 ≤ k →
      roundTiesEven x k % 2 = 0)) ∧
  (∀ (x : Nat) (e : Int), x < 2 ^ 54 →
    (roundTiesAway x e : ℚ) - 1 / 2 ≤ (x : ℚ) * (2 : ℚ) ^ e ∧ (x : ℚ) * (2 : ℚ) ^ e < (roundTiesAway x e : ℚ) + 1 / 2)

/-- R198, R123 to R127 (binary64 is presumed, log 16): for a value in range the biased integer fits 28 bits, the four
value bytes have bit 7 set, and the peer's decoding of them gives back the rounded integer. -/
def Obligations.ParamFrameRoundTrip : Prop :=
  ∀ value : F64, paramInRange value = true →
    0 ≤ paramInteger value + Config.paramBias ∧ paramInteger value + Config.paramBias < 2 ^ Config.paramBits ∧
    ∀ tag g1 g2 g3 last : Byte, paramRest tag value = [g1, g2, g3, last] →
      last = tag ∧ (paramFirst value).getLsbD 7 = true ∧ g1.getLsbD 7 = true ∧ g2.getLsbD 7 = true ∧
      g3.getLsbD 7 = true ∧ peerDecode (paramFirst value) g1 g2 g3 = paramInteger value

/-- R199: the integer sent for a value in range is within one half plus the error of the binary64 product (at most 2^-27
in this range; binary64 is presumed, log 16) of a thousand times the value. -/
def Obligations.ParamErrorBound : Prop :=
  ∀ value : F64, paramInRange value = true →
    |(paramInteger value : ℚ) - 1000 * f64Value value| ≤ 1 / 2 + 1 / 2 ^ 27

/-- R122, R135, R194, as a script (log 1): with five free places in the TX ring, a `SEND_PARAM` in the top slot and four
steps of MAIN queue the five bytes of the frame in order, and the mainline is idle again. -/
def Obligations.SendParamQueuesFrame : Prop :=
  ∀ (s : State) (rest : List Input) (tag : Byte) (value : F64), s.admits .top → s.tx.valid → s.tx.contents.length ≤ 122 →
    tag.getLsbD 7 = false → paramInRange value = true →
    ∃ q : RingBuf Config.txCap,
      q.contents = s.tx.contents ++ paramFirst value :: paramRest tag value ∧ q.tail = s.tx.tail ∧
      stepsRun 5 (s.withScript ((Instr.sendParam tag value).input :: List.replicate 4 .runMain ++ rest)) =
        .next { s with tx := q, txie := true, script := rest }

/-- R194: a waiting send continues by one byte while the TX ring is not full, in either slot, and MAIN has no step while
it is full (an outcome the model names, log 7). -/
def Obligations.WaitingSendContinues : Prop :=
  ∀ (s : State) (b : Byte) (rest : List Byte), s.live →
    (s.main.mode = .sending b rest → ∀ q, s.tx.push b = some q →
      mainStep s = .next { s with tx := q, txie := true, main := { s.main with mode := Mode.ofQueue rest } }) ∧
    (s.main.mode = .reading → s.main.inIdle = true → s.main.nested = .sending b rest → ∀ q, s.tx.push b = some q →
      mainStep s = .next { s with tx := q, txie := true, main := { s.main with nested := Nested.ofQueue rest } }) ∧
    (s.main.mode = .sending b rest → s.tx.push b = none → mainStep s = .refused .notEnabled) ∧
    (s.main.mode = .reading → s.main.inIdle = true → s.main.nested = .sending b rest → s.tx.push b = none →
      mainStep s = .refused .notEnabled)

/-! ## The receive side of the mainline -/

/-- R205 to R208: `READ_BYTE` with a byte there returns the oldest, counts it, and at a full chunk queues one
acknowledgment and arms; at the counter's limit it faults and writes nothing else. -/
def Obligations.ReadByteTakesOldest : Prop :=
  ∀ (s : State) (b : Byte) (q : RingBuf Config.rxCap), s.admits .top → s.rx.pop = some (b, q) →
    (s.fc.consumed.toNat + 1 ≠ Config.chunkSize → exec .readByte s =
      .next { s with
        rx := q, fc := { s.fc with consumed := s.fc.consumed + 1 }, trace := s.trace ++ [.ret (.byte b)] }) ∧
    (s.fc.consumed.toNat + 1 = Config.chunkSize → s.fc.pendingAcks.toNat ≠ Config.pendingAcksMax → exec .readByte s =
      .next { s with
        rx := q, fc := { consumed := 0, pendingAcks := s.fc.pendingAcks + 1 }, txie := true
        trace := s.trace ++ [.ret (.byte b)] }) ∧
    (s.fc.consumed.toNat + 1 = Config.chunkSize → s.fc.pendingAcks.toNat = Config.pendingAcksMax → exec .readByte s =
      .next { s with faults := [.ackCounterOverflow] })

/-- R205, R209, R210, R211: an empty RX ring makes `READ_BYTE` wait with one underrun callback; each further step of
MAIN is an idle callback, or, once a byte is there and no callback runs, the byte (counted by R207, R208: a full chunk
queues an acknowledgment, and at the counter's limit the step faults and writes nothing else). -/
def Obligations.ReadByteWaits : Prop :=
  (∀ s : State, s.admits .top → s.rx.isEmpty = true → exec .readByte s =
    .next { s with
      main := { s.main with mode := .reading, inIdle := false }, trace := s.trace ++ [.call .underrun] }) ∧
  (∀ s : State, s.live → s.main.mode = .reading → s.main.inIdle = false → s.rx.isEmpty = true →
    mainStep s = .next { s with main := { s.main with inIdle := true }, trace := s.trace ++ [.call .idle] }) ∧
  (∀ (s : State) (b : Byte) (q : RingBuf Config.rxCap), s.live → s.main.mode = .reading → s.main.inIdle = false →
    s.rx.pop = some (b, q) → s.fc.consumed.toNat + 1 ≠ Config.chunkSize →
    mainStep s = .next { s with
      rx := q, fc := { s.fc with consumed := s.fc.consumed + 1 }, trace := s.trace ++ [.ret (.byte b)]
      main := { s.main with mode := .idle } }) ∧
  (∀ (s : State) (b : Byte) (q : RingBuf Config.rxCap), s.live → s.main.mode = .reading → s.main.inIdle = false →
    s.rx.pop = some (b, q) → s.fc.consumed.toNat + 1 = Config.chunkSize →
    s.fc.pendingAcks.toNat ≠ Config.pendingAcksMax →
    mainStep s = .next { s with
      rx := q, fc := { consumed := 0, pendingAcks := s.fc.pendingAcks + 1 }, txie := true
      trace := s.trace ++ [.ret (.byte b)], main := { s.main with mode := .idle } }) ∧
  (∀ (s : State) (b : Byte) (q : RingBuf Config.rxCap), s.live → s.main.mode = .reading → s.main.inIdle = false →
    s.rx.pop = some (b, q) → s.fc.consumed.toNat + 1 = Config.chunkSize →
    s.fc.pendingAcks.toNat = Config.pendingAcksMax →
    mainStep s = .next { s with faults := [.ackCounterOverflow] })

/-- R219 item 1, R207, R94, as a script (log 1): `n` reads of bytes already received return them in order and queue one
acknowledgment for each chunk completed. -/
def Obligations.ChunkAcknowledgments : Prop :=
  ∀ (s : State) (rest : List Input) (n : Nat), s.admits .top → s.rx.valid → s.fc.consumed.toNat < Config.chunkSize →
    n ≤ s.rx.contents.length →
    s.fc.pendingAcks.toNat + (s.fc.consumed.toNat + n) / Config.chunkSize ≤ Config.pendingAcksMax →
    ∃ t : State,
      stepsRun n (s.withScript (List.replicate n Instr.readByte.input ++ rest)) = .next t ∧
      t.trace = s.trace ++ (s.rx.contents.take n).map (fun b => .ret (.byte b)) ∧
      t.rx.contents = s.rx.contents.drop n ∧
      t.fc.consumed.toNat = (s.fc.consumed.toNat + n) % Config.chunkSize ∧
      t.fc.pendingAcks.toNat = s.fc.pendingAcks.toNat + (s.fc.consumed.toNat + n) / Config.chunkSize ∧
      t.txie = (s.txie || decide (Config.chunkSize ≤ s.fc.consumed.toNat + n)) ∧ t.script = rest

/-- R201, R263 to R265: the operations that only answer, in either slot: the answer is an event and nothing else is
written; `READ_LIMIT` above 5 is refused. -/
def Obligations.QueriesAnswer : Prop :=
  ∀ (s : State) (slot : SlotId) (i : Byte), s.admits slot →
    exec .bytesAvailable s = .next { s with trace := s.trace ++ [.ret (.bool (decide (s.rx.head ≠ s.rx.tail)))] } ∧
    exec .readDoor s = .next { s with trace := s.trace ++ [.ret (.bool s.inp.door)] } ∧
    exec .readChiller s = .next { s with trace := s.trace ++ [.ret (.bool s.inp.chiller)] } ∧
    (∀ h : i.toNat < 6,
      exec (.readLimit i) s = .next { s with trace := s.trace ++ [.ret (.bool (s.inp.limit[i.toNat]'h))] }) ∧
    (6 ≤ i.toNat → exec (.readLimit i) s = .next { s with refused := true, refuseReason := some .badLimitIndex })

/-- R220: `IDLE_RETURN` ends the running callback, and is refused outside one. -/
def Obligations.IdleReturnEndsCallback : Prop :=
  (∀ s : State, s.admits .nested → exec .idleReturn s = .next { s with main := { s.main with inIdle := false } }) ∧
  (∀ s : State, s.live → ¬s.admits .nested →
    exec .idleReturn s = .next { s with refused := true, refuseReason := some .idleReturnOutsideIdle })

/-- R191: an operation issued while neither slot is free is refused, and so is `READ_BYTE` inside a callback; a refused
issue changes nothing but the record of the refusal. -/
def Obligations.BusyMainlineRefuses : Prop :=
  (∀ (i : Instr) (s : State), s.live → ¬s.admits .top → ¬s.admits .nested → formatOf i = .op → i ≠ .idleReturn →
    exec i s = .next { s with refused := true, refuseReason := some .issueWhileBusy }) ∧
  (∀ s : State, s.admits .nested →
    exec .readByte s = .next { s with refused := true, refuseReason := some .issueWhileBusy })

/-! ## The transmit-ready handler -/

/-- R218 (event code 0x81): one activation sends an acknowledgment if one is pending, else the oldest buffered byte, and
disarms when nothing is left. -/
def Obligations.EvTxReadySends : Prop :=
  ∀ s : State, s.live → s.gie = true → s.txie = true → s.uart.txFree = true →
    encode .evTxReady = [0x81] ∧
    (s.fc.pendingAcks ≠ 0 → exec .evTxReady s = .next { s with
      fc := { s.fc with pendingAcks := s.fc.pendingAcks - 1 }, uart := { s.uart with txFree := false }
      txie := !(decide (s.tx.head = s.tx.tail) && decide (s.fc.pendingAcks = 1))
      trace := s.trace ++ [.tx Config.codeAck] }) ∧
    (∀ b q, s.fc.pendingAcks = 0 → s.tx.pop = some (b, q) → exec .evTxReady s = .next { s with
      tx := q, uart := { s.uart with txFree := false }, txie := !decide (q.head = q.tail)
      trace := s.trace ++ [.tx b] }) ∧
    (s.fc.pendingAcks = 0 → s.tx.pop = none → exec .evTxReady s = .next { s with txie := false })

/-- R213, R214: the acknowledgment stage sends one acknowledgment and counts it down (logs 4, 21). -/
def Obligations.AckStageCompletes : Prop :=
  ∀ s : State, s.live → s.fc.pendingAcks ≠ 0 →
    exec .txAck s = .next { s with
      fc := { s.fc with pendingAcks := s.fc.pendingAcks - 1 }, uart := { s.uart with txFree := false }
      trace := s.trace ++ [.tx Config.codeAck] }

/-- R95, R219 items 2 and 3, R135, as a script (logs 1, 24): from any live state with something to send, an armed source
and a free transmitter, `TXALL` sends every pending acknowledgment and then every buffered byte in order, and disarms.
-/
def Obligations.TransmitterDrains : Prop :=
  ∀ (s : State) (rest : List Input), s.live → s.gie = true → s.txie = true → s.uart.txFree = true → s.tx.valid →
    (s.fc.pendingAcks ≠ 0 ∨ s.tx.contents ≠ []) →
    ∃ t : State,
      stepsRun (2 * (s.fc.pendingAcks.toNat + s.tx.length)) (s.withScript (scriptOf (txAllLines s) ++ rest)) = .next t ∧
      t.trace = s.trace ++ List.replicate s.fc.pendingAcks.toNat (.tx Config.codeAck) ++ s.tx.contents.map .tx ∧
      t.fc.pendingAcks = 0 ∧ t.tx.contents = [] ∧ t.txie = false ∧ t.uart.txFree = true ∧ t.script = rest

/-! ## The pulse engine -/

/-- R230 to R232: the configuration operations, in either slot: what each writes and nothing else; a raster whose end does
not fit in ADDR_W bits is refused. -/
def Obligations.PulseConfigurationCompletes : Prop :=
  ∀ (s : State) (slot : SlotId) (d : Byte) (f : U16) (addr len : Addr), s.admits slot →
    exec (.setPulseDuration d) s = .next { s with pe := { s.pe with duration := d, cursor := s.pe.sentinel } } ∧
    exec (.setPulseFrequency f) s = .next { s with pe := { s.pe with frequency := f } } ∧
    (addr.toNat + len.toNat ≤ 2 ^ Config.addrW - 1 → exec (.startRaster addr len) s =
      .next { s with pe := { s.pe with cursor := addr, sentinel := addr + len, timer := 0xFFFF } }) ∧
    (2 ^ Config.addrW - 1 < addr.toNat + len.toNat → exec (.startRaster addr len) s =
      .next { s with refused := true, refuseReason := some .rasterRange })

/-- R233 (event code 0x82): one activation of the periodic handler. `width` and `cursor` are what a wrapping tick loads:
the byte at the cursor while a raster is active, the fixed duration otherwise; a tick that does not wrap loads nothing.
-/
def Obligations.EvTickRunsOnePeriod : Prop :=
  ∀ (s : State) (width : Byte) (cursor : Addr), s.live → s.gie = true → s.tickPending = true →
    ((s.pe.timer.toNat + s.pe.frequency.toNat < 2 ^ 16 ∧ width = s.pe.remaining ∧ cursor = s.pe.cursor) ∨
     (2 ^ 16 ≤ s.pe.timer.toNat + s.pe.frequency.toNat ∧ s.pe.cursor ≠ s.pe.sentinel ∧
        width = Memory.read s.mem s.pe.cursor.toNat ∧ cursor = s.pe.cursor + 1) ∨
     (2 ^ 16 ≤ s.pe.timer.toNat + s.pe.frequency.toNat ∧ s.pe.cursor = s.pe.sentinel ∧
        width = s.pe.duration ∧ cursor = s.pe.cursor)) →
    encode .evTick = [0x82] ∧ exec .evTick s = .next { s with
      tickPending := false
      pe := { s.pe with
        timer := s.pe.timer + s.pe.frequency, cursor := cursor, remaining := if width = 0 then 0 else width - 1 }
      laserOut := decide (width ≠ 0)
      trace := s.trace ++ [.laser (decide (width ≠ 0))] }

/-- R135, R233, R287, as a script (log 1): `TICKS n` runs the engine for `n` ticks, one laser event each, and touches
nothing else. -/
def Obligations.TicksDriveEngine : Prop :=
  ∀ (s : State) (rest : List Input) (n : Nat), s.live → s.gie = true → s.tickPending = false →
    stepsRun (2 * n) (s.withScript (scriptOf (ticksLines n) ++ rest)) =
      .next { s with
        pe := (PulseEngine.ticks s.mem n s.pe).2
        laserOut := (PulseEngine.ticks s.mem n s.pe).1.getLast?.getD s.laserOut
        trace := s.trace ++ (PulseEngine.ticks s.mem n s.pe).1.map .laser
        script := rest }

/-- R239: a width loaded by a wrapping tick drives the output high for that many ticks and low after, as long as no later
tick of the stretch wraps. -/
def Obligations.PulseWidthLevels : Prop :=
  ∀ (m : Memory) (p : PulseEngine) (n : Nat) (w : Byte), 1 ≤ n →
    2 ^ 16 ≤ p.timer.toNat + p.frequency.toNat →
    p.timer.toNat + n * p.frequency.toNat < 2 * 2 ^ 16 →
    w = (if p.cursor ≠ p.sentinel then Memory.read m p.cursor.toNat else p.duration) →
    (PulseEngine.ticks m n p).1 = periodLevels n w.toNat

/-- R236, R240, R241: with a step that divides 65536 and widths no longer than the period, a wrap at the first tick
gives one period of output per raster byte, in the order of memory, and then periods of the fixed duration. -/
def Obligations.RasterThenFixedLevels : Prop :=
  ∀ (m : Memory) (p : PulseEngine) (ws : List Byte) (k : Nat),
    0 < p.frequency.toNat → p.frequency.toNat ∣ 2 ^ 16 → 2 ^ 16 ≤ p.timer.toNat + p.frequency.toNat →
    p.cursor.toNat + ws.length = p.sentinel.toNat →
    (∀ j w, ws[j]? = some w → Memory.read m (p.cursor.toNat + j) = w) →
    (∀ w ∈ ws, w.toNat ≤ 2 ^ 16 / p.frequency.toNat) → p.duration.toNat ≤ 2 ^ 16 / p.frequency.toNat →
    (PulseEngine.ticks m ((ws.length + k) * (2 ^ 16 / p.frequency.toNat)) p).1 =
      (ws ++ List.replicate k p.duration).flatMap fun w => periodLevels (2 ^ 16 / p.frequency.toNat) w.toNat

/-- R237, R238: with step 0 no tick moves the accumulator or the cursor; with a step s > 0 the wrap after a wrap is
floor(65536/s) to ceil(65536/s) ticks later. -/
def Obligations.WrapSpacing : Prop :=
  (∀ (m : Memory) (p : PulseEngine) (n : Nat), p.frequency = 0 →
    (PulseEngine.ticks m n p).2.timer = p.timer ∧ (PulseEngine.ticks m n p).2.cursor = p.cursor ∧
    (PulseEngine.ticks m n p).1 = periodLevels n p.remaining.toNat) ∧
  (∀ (m : Memory) (p : PulseEngine), p.timer.toNat < p.frequency.toNat →
    ∃ k : Nat, 1 ≤ k ∧ 2 ^ 16 / p.frequency.toNat ≤ k ∧
      k ≤ (2 ^ 16 + p.frequency.toNat - 1) / p.frequency.toNat ∧
      (∀ j, j + 1 < k → (PulseEngine.ticks m j p).2.wraps = false) ∧
      (PulseEngine.ticks m (k - 1) p).2.wraps = true)

/-! ## Control outputs, boot and the environment -/

/-- R260 to R262 (selectors 0x20 to 0x22): each assist operation drives its own line, in either slot, and nothing else. -/
def Obligations.OutputLinesAreDriven : Prop :=
  ∀ (s : State) (slot : SlotId) (v : Bool), s.admits slot →
    (encode (.setAir v)).head? = some 0x20 ∧ (encode (.setAux1 v)).head? = some 0x21 ∧
    (encode (.setAux2 v)).head? = some 0x22 ∧
    exec (.setAir v) s = .next { s with outp := { s.outp with air := v } } ∧
    exec (.setAux1 v) s = .next { s with outp := { s.outp with aux1 := v } } ∧
    exec (.setAux2 v) s = .next { s with outp := { s.outp with aux2 := v } }

/-- R341: `INIT_DONE` sets the global interrupt enable and nothing else, in either slot. -/
def Obligations.InitDoneEnablesInterrupts : Prop :=
  ∀ (s : State) (slot : SlotId), s.admits slot → exec .initDone s = .next { s with gie := true }

/-- R285 to R287: the events of the link and the timer, when admitted; a tick that finds the last one pending faults. -/
def Obligations.LinkAndTimerEvents : Prop :=
  ∀ (s : State) (b : Byte), s.live →
    (s.gie = true → s.uart.rxFull = false →
      exec (.rxArrive b) s = .next { s with uart := { s.uart with rxData := b, rxFull := true } }) ∧
    (s.gie = true → s.uart.rxFull = true →
      exec (.rxArrive b) s = .next { s with uart := { s.uart with rxOvr := true } }) ∧
    (s.uart.txFree = false → exec .txDone s = .next { s with uart := { s.uart with txFree := true } }) ∧
    (s.gie = true → s.tickPending = false → exec .tick s = .next { s with tickPending := true }) ∧
    (s.gie = true → s.tickPending = true → exec .tick s = .next { s with faults := [.tickLost] })

/-- R297: an input line changes at any step, and the other lines and fields stay. -/
def Obligations.InputLinesAreSet : Prop :=
  ∀ (s : State) (i : Fin 6) (v : Bool), s.live →
    exec (.inputSet .door v) s = .next { s with inp := { s.inp with door := v } } ∧
    exec (.inputSet .chiller v) s = .next { s with inp := { s.inp with chiller := v } } ∧
    ∃ l : Vector Bool 6, exec (.inputSet (.limit i) v) s = .next { s with inp := { s.inp with limit := l } } ∧
      l[i.val] = v ∧ ∀ j : Fin 6, j ≠ i → l[j.val] = s.inp.limit[j.val]

/-- R298, R90: a caller write outside the active raster window stores its byte at its address, read back from a canonical
memory (log 9), and leaves every other address and field alone; inside the window it faults and writes nothing. -/
def Obligations.MemWriteStoresOrFaults : Prop :=
  ∀ (s : State) (addr : Addr) (v : Byte), s.live →
    (¬(s.pe.cursor ≠ s.pe.sentinel ∧ s.pe.cursor.toNat ≤ addr.toNat ∧ addr.toNat < s.pe.sentinel.toNat) →
      ∃ m : Memory, exec (.memWrite addr v) s = .next { s with mem := m } ∧
        (Memory.wf s.mem = true → Memory.read m addr.toNat = v) ∧
        ∀ a : Nat, a ≠ addr.toNat → Memory.read m a = Memory.read s.mem a) ∧
    (s.pe.cursor ≠ s.pe.sentinel → s.pe.cursor.toNat ≤ addr.toNat → addr.toNat < s.pe.sentinel.toNat →
      exec (.memWrite addr v) s = .next { s with faults := [.rasterBufferMutated] })

/-! ## Whole-machine rules -/

/-- R301, R302: a state with a fault or a refusal is quiescent: no instruction, no step of MAIN and no step of the machine
has a next state (they answer a fault outcome, the model's reading, log 6). -/
def Obligations.QuiescentForGood : Prop :=
  ∀ s : State, (s.faults ≠ [] ∨ s.refused = true) →
    (∀ i : Instr, ∃ f, exec i s = .fault f) ∧ (∃ f, mainStep s = .fault f) ∧ (∃ f, step s = .fault f)

/-- R28, R301, R302: a transition that records a fault or a refusal applies no other write (the record is a next state,
log 6). -/
def Obligations.StopsApplyNoOtherWrite : Prop :=
  ∀ (i : Instr) (s t : State), exec i s = .next t ∨ mainStep s = .next t →
    (t.faults ≠ s.faults → ∃ r, t = { s with faults := [r] }) ∧
    (t.refused ≠ s.refused → ∃ r, t = { s with refused := true, refuseReason := some r })

/-- R282 to R287: with interrupts disabled no handler runs and no byte or tick is admitted; a handler that is not pending
and a `TX_DONE` with a free transmitter have no step either (log 7). -/
def Obligations.DisabledAgentsHaveNoStep : Prop :=
  ∀ (s : State) (b : Byte), s.live →
    (s.gie = false → ∀ i ∈ [Instr.evRx, .evTxReady, .evTick, .rxArrive b, .tick], exec i s = .refused .notEnabled) ∧
    (s.uart.rxFull = false → exec .evRx s = .refused .notEnabled) ∧
    (s.txie = false → exec .evTxReady s = .refused .notEnabled) ∧
    (s.uart.txFree = false → exec .evTxReady s = .refused .notEnabled) ∧
    (s.tickPending = false → exec .evTick s = .refused .notEnabled) ∧
    (s.uart.txFree = true → exec .txDone s = .refused .notEnabled)

/-- R62, R48, R243: which agent writes which field, over every transition of R280 but MAIN's own continuation: a
transition of another agent leaves the field alone. -/
def Obligations.WriteRightsOfAgents : Prop :=
  ∀ (i : Instr) (s t : State), isTransition i = true → exec i s = .next t →
    (agentOf i ≠ .rxi → t.rx.head = s.rx.head ∧ t.rx.slot = s.rx.slot ∧ t.dup = s.dup) ∧
    (agentOf i ≠ .main → t.rx.tail = s.rx.tail ∧ t.tx.head = s.tx.head ∧ t.tx.slot = s.tx.slot ∧ t.main = s.main ∧
      t.pe.frequency = s.pe.frequency ∧ t.pe.duration = s.pe.duration ∧ t.pe.sentinel = s.pe.sentinel ∧
      t.outp = s.outp ∧ t.gie = s.gie) ∧
    (agentOf i ≠ .txi → t.tx.tail = s.tx.tail) ∧
    (agentOf i ≠ .tmi → t.pe.remaining = s.pe.remaining ∧ t.laserOut = s.laserOut) ∧
    (agentOf i ≠ .env → t.inp = s.inp ∧ t.mem = s.mem) ∧
    (agentOf i ≠ .main → agentOf i ≠ .rxi → t.fc.consumed = s.fc.consumed) ∧
    (agentOf i ≠ .main → agentOf i ≠ .txi → t.fc.pendingAcks = s.fc.pendingAcks ∧ t.txie = s.txie) ∧
    (agentOf i ≠ .main → agentOf i ≠ .tmi → t.pe.timer = s.pe.timer ∧ t.pe.cursor = s.pe.cursor) ∧
    (agentOf i ≠ .env → agentOf i ≠ .tmi → t.tickPending = s.tickPending) ∧
    (agentOf i = .main ∨ agentOf i = .tmi → t.uart = s.uart)

/-- R62, R194, R210, R211: MAIN's continuation step writes only fields that R62 gives MAIN. -/
def Obligations.WriteRightsOfMainStep : Prop :=
  ∀ s t : State, mainStep s = .next t →
    t.rx.head = s.rx.head ∧ t.rx.slot = s.rx.slot ∧ t.tx.tail = s.tx.tail ∧ t.dup = s.dup ∧ t.pe = s.pe ∧
    t.laserOut = s.laserOut ∧ t.outp = s.outp ∧ t.inp = s.inp ∧ t.uart = s.uart ∧ t.tickPending = s.tickPending ∧
    t.gie = s.gie ∧ t.mem = s.mem

/-- R60, R341, R27: every step keeps the events emitted so far and emits at most two more (R171, R181: the receive handler
emits an overrun stop and one event of its classifier), and never clears the interrupt enable. -/
def Obligations.StepsExtendTrace : Prop :=
  ∀ s t : State, step s = .next t →
    (∃ l : List Event, t.trace = s.trace ++ l ∧ l.length ≤ 2) ∧ (s.gie = true → t.gie = true)
end

