-- ==== Sys2Proof/Laws/Ring.lean ====
section
/-! SUPPORT. What a push and a pop can do, and the small facts about indices and slots they rest on. -/

namespace Sys2Proof.Machine

/-- A push either finds the ring full or writes the head's slot and advances the head. -/
theorem RingBuf.push_cases {C : Nat} (r : RingBuf C) (b : Byte) :
    (r.isFull = true ∧ r.push b = none) ∨
    (r.isFull = false ∧ r.push b = some { r.slotPut r.head b with head := ringNext C r.head }) := by
  by_cases h : ringNext C r.head = r.tail <;> simp [RingBuf.push, RingBuf.isFull, h]

theorem RingBuf.push_of_isFull {C : Nat} {r : RingBuf C} (b : Byte) (h : r.isFull = true) : r.push b = none := by
  rcases r.push_cases b with ⟨_, h'⟩ | ⟨h', _⟩
  · exact h'
  · simp [h] at h'

theorem RingBuf.push_of_not_isFull {C : Nat} {r : RingBuf C} (b : Byte) (h : r.isFull = false) :
    r.push b = some { r.slotPut r.head b with head := ringNext C r.head } := by
  rcases r.push_cases b with ⟨h', _⟩ | ⟨_, h'⟩
  · simp [h] at h'
  · exact h'

/-- A pop either finds the ring empty or reads the tail's slot and advances the tail. -/
theorem RingBuf.pop_cases {C : Nat} (r : RingBuf C) :
    (r.isEmpty = true ∧ r.pop = none) ∨
    (r.isEmpty = false ∧ r.pop = some (r.slotAt r.tail, { r with tail := ringNext C r.tail })) := by
  by_cases h : r.head = r.tail <;> simp [RingBuf.pop, RingBuf.isEmpty, h]

theorem RingBuf.pop_of_isEmpty {C : Nat} {r : RingBuf C} (h : r.isEmpty = true) : r.pop = none := by
  rcases r.pop_cases with ⟨_, h'⟩ | ⟨h', _⟩
  · exact h'
  · simp [h] at h'

theorem RingBuf.pop_of_not_isEmpty {C : Nat} {r : RingBuf C} (h : r.isEmpty = false) :
    r.pop = some (r.slotAt r.tail, { r with tail := ringNext C r.tail }) := by
  rcases r.pop_cases with ⟨h', _⟩ | ⟨_, h'⟩
  · simp [h] at h'
  · exact h'

/-- The next index is the successor modulo the capacity. -/
theorem ringNext_toNat {C : Nat} (hC : 0 < C) (hC' : C ≤ 256) (i : Byte) : (ringNext C i).toNat = (i.toNat + 1) % C := by
  have : (i.toNat + 1) % C < C := Nat.mod_lt _ hC
  simp only [ringNext, BitVec.toNat_ofNat]
  omega

theorem ringNext_lt {C : Nat} (hC : 0 < C) (hC' : C ≤ 256) (i : Byte) : (ringNext C i).toNat < C := by
  rw [ringNext_toNat hC hC']
  exact Nat.mod_lt _ hC

@[simp] theorem RingBuf.slotPut_head {C : Nat} (r : RingBuf C) (i b : Byte) : (r.slotPut i b).head = r.head := rfl
@[simp] theorem RingBuf.slotPut_tail {C : Nat} (r : RingBuf C) (i b : Byte) : (r.slotPut i b).tail = r.tail := rfl

/-- A slot reads back what was written to it. -/
theorem RingBuf.slotAt_slotPut_same {C : Nat} (r : RingBuf C) (i b : Byte) (h : i.toNat < C) :
    (r.slotPut i b).slotAt i = b := by
  simp [RingBuf.slotAt, RingBuf.slotPut, h]

/-- A slot write leaves every other slot alone. -/
theorem RingBuf.slotAt_slotPut_other {C : Nat} (r : RingBuf C) {i j : Byte} (b : Byte) (h : j ≠ i) :
    (r.slotPut i b).slotAt j = r.slotAt j := by
  have h' : i.toNat ≠ j.toNat := fun e => h (BitVec.eq_of_toNat_eq e.symm)
  simp [RingBuf.slotAt, RingBuf.slotPut, h']

end Sys2Proof.Machine
end

