-- ==== Sys2Proof/Laws/State.lean ====
section
/-! SUPPORT. One lemma per field per update of the state, so that no proof unfolds a record update. -/

namespace Sys2Proof.Machine

variable (s : State)

@[simp] theorem State.emit_rx (e : Event) : (s.emit e).rx = s.rx := rfl
@[simp] theorem State.emit_tx (e : Event) : (s.emit e).tx = s.tx := rfl
@[simp] theorem State.emit_dup (e : Event) : (s.emit e).dup = s.dup := rfl
@[simp] theorem State.emit_fc (e : Event) : (s.emit e).fc = s.fc := rfl
@[simp] theorem State.emit_txie (e : Event) : (s.emit e).txie = s.txie := rfl
@[simp] theorem State.emit_pe (e : Event) : (s.emit e).pe = s.pe := rfl
@[simp] theorem State.emit_laserOut (e : Event) : (s.emit e).laserOut = s.laserOut := rfl
@[simp] theorem State.emit_outp (e : Event) : (s.emit e).outp = s.outp := rfl
@[simp] theorem State.emit_inp (e : Event) : (s.emit e).inp = s.inp := rfl
@[simp] theorem State.emit_uart (e : Event) : (s.emit e).uart = s.uart := rfl
@[simp] theorem State.emit_main (e : Event) : (s.emit e).main = s.main := rfl
@[simp] theorem State.emit_tickPending (e : Event) : (s.emit e).tickPending = s.tickPending := rfl
@[simp] theorem State.emit_gie (e : Event) : (s.emit e).gie = s.gie := rfl
@[simp] theorem State.emit_faults (e : Event) : (s.emit e).faults = s.faults := rfl
@[simp] theorem State.emit_trace (e : Event) : (s.emit e).trace = s.trace ++ [e] := rfl
@[simp] theorem State.emit_refused (e : Event) : (s.emit e).refused = s.refused := rfl
@[simp] theorem State.emit_mem (e : Event) : (s.emit e).mem = s.mem := rfl
@[simp] theorem State.emit_script (e : Event) : (s.emit e).script = s.script := rfl
@[simp] theorem State.emit_rbResult (e : Event) : (s.emit e).rbResult = s.rbResult := rfl
@[simp] theorem State.emit_refuseReason (e : Event) : (s.emit e).refuseReason = s.refuseReason := rfl
@[simp] theorem State.emit_bench (e : Event) : (s.emit e).bench = s.bench := rfl

@[simp] theorem State.requestStop_rx (r : StopReason) : (s.requestStop r).rx = s.rx := rfl
@[simp] theorem State.requestStop_tx (r : StopReason) : (s.requestStop r).tx = s.tx := rfl
@[simp] theorem State.requestStop_dup (r : StopReason) : (s.requestStop r).dup = s.dup := rfl
@[simp] theorem State.requestStop_fc (r : StopReason) : (s.requestStop r).fc = s.fc := rfl
@[simp] theorem State.requestStop_txie (r : StopReason) : (s.requestStop r).txie = s.txie := rfl
@[simp] theorem State.requestStop_pe (r : StopReason) : (s.requestStop r).pe = s.pe := rfl
@[simp] theorem State.requestStop_laserOut (r : StopReason) : (s.requestStop r).laserOut = s.laserOut := rfl
@[simp] theorem State.requestStop_outp (r : StopReason) : (s.requestStop r).outp = s.outp := rfl
@[simp] theorem State.requestStop_inp (r : StopReason) : (s.requestStop r).inp = s.inp := rfl
@[simp] theorem State.requestStop_uart (r : StopReason) : (s.requestStop r).uart = s.uart := rfl
@[simp] theorem State.requestStop_main (r : StopReason) : (s.requestStop r).main = s.main := rfl
@[simp] theorem State.requestStop_tickPending (r : StopReason) : (s.requestStop r).tickPending = s.tickPending := rfl
@[simp] theorem State.requestStop_gie (r : StopReason) : (s.requestStop r).gie = s.gie := rfl
@[simp] theorem State.requestStop_faults (r : StopReason) : (s.requestStop r).faults = s.faults := rfl
@[simp] theorem State.requestStop_trace (r : StopReason) : (s.requestStop r).trace = s.trace ++ [.stopReq (Config.stopCode r)] := rfl
@[simp] theorem State.requestStop_refused (r : StopReason) : (s.requestStop r).refused = s.refused := rfl
@[simp] theorem State.requestStop_mem (r : StopReason) : (s.requestStop r).mem = s.mem := rfl
@[simp] theorem State.requestStop_script (r : StopReason) : (s.requestStop r).script = s.script := rfl
@[simp] theorem State.requestStop_rbResult (r : StopReason) : (s.requestStop r).rbResult = s.rbResult := rfl
@[simp] theorem State.requestStop_refuseReason (r : StopReason) : (s.requestStop r).refuseReason = s.refuseReason := rfl
@[simp] theorem State.requestStop_bench (r : StopReason) : (s.requestStop r).bench = s.bench := rfl

@[simp] theorem State.recordFault_rx (r : FaultReason) : (s.recordFault r).rx = s.rx := rfl
@[simp] theorem State.recordFault_tx (r : FaultReason) : (s.recordFault r).tx = s.tx := rfl
@[simp] theorem State.recordFault_dup (r : FaultReason) : (s.recordFault r).dup = s.dup := rfl
@[simp] theorem State.recordFault_fc (r : FaultReason) : (s.recordFault r).fc = s.fc := rfl
@[simp] theorem State.recordFault_txie (r : FaultReason) : (s.recordFault r).txie = s.txie := rfl
@[simp] theorem State.recordFault_pe (r : FaultReason) : (s.recordFault r).pe = s.pe := rfl
@[simp] theorem State.recordFault_laserOut (r : FaultReason) : (s.recordFault r).laserOut = s.laserOut := rfl
@[simp] theorem State.recordFault_outp (r : FaultReason) : (s.recordFault r).outp = s.outp := rfl
@[simp] theorem State.recordFault_inp (r : FaultReason) : (s.recordFault r).inp = s.inp := rfl
@[simp] theorem State.recordFault_uart (r : FaultReason) : (s.recordFault r).uart = s.uart := rfl
@[simp] theorem State.recordFault_main (r : FaultReason) : (s.recordFault r).main = s.main := rfl
@[simp] theorem State.recordFault_tickPending (r : FaultReason) : (s.recordFault r).tickPending = s.tickPending := rfl
@[simp] theorem State.recordFault_gie (r : FaultReason) : (s.recordFault r).gie = s.gie := rfl
@[simp] theorem State.recordFault_faults (r : FaultReason) : (s.recordFault r).faults = if r ∈ s.faults then s.faults else r :: s.faults := rfl
@[simp] theorem State.recordFault_trace (r : FaultReason) : (s.recordFault r).trace = s.trace := rfl
@[simp] theorem State.recordFault_refused (r : FaultReason) : (s.recordFault r).refused = s.refused := rfl
@[simp] theorem State.recordFault_mem (r : FaultReason) : (s.recordFault r).mem = s.mem := rfl
@[simp] theorem State.recordFault_script (r : FaultReason) : (s.recordFault r).script = s.script := rfl
@[simp] theorem State.recordFault_rbResult (r : FaultReason) : (s.recordFault r).rbResult = s.rbResult := rfl
@[simp] theorem State.recordFault_refuseReason (r : FaultReason) : (s.recordFault r).refuseReason = s.refuseReason := rfl
@[simp] theorem State.recordFault_bench (r : FaultReason) : (s.recordFault r).bench = s.bench := rfl

@[simp] theorem State.recordRefusal_rx (r : RefuseReason) : (s.recordRefusal r).rx = s.rx := rfl
@[simp] theorem State.recordRefusal_tx (r : RefuseReason) : (s.recordRefusal r).tx = s.tx := rfl
@[simp] theorem State.recordRefusal_dup (r : RefuseReason) : (s.recordRefusal r).dup = s.dup := rfl
@[simp] theorem State.recordRefusal_fc (r : RefuseReason) : (s.recordRefusal r).fc = s.fc := rfl
@[simp] theorem State.recordRefusal_txie (r : RefuseReason) : (s.recordRefusal r).txie = s.txie := rfl
@[simp] theorem State.recordRefusal_pe (r : RefuseReason) : (s.recordRefusal r).pe = s.pe := rfl
@[simp] theorem State.recordRefusal_laserOut (r : RefuseReason) : (s.recordRefusal r).laserOut = s.laserOut := rfl
@[simp] theorem State.recordRefusal_outp (r : RefuseReason) : (s.recordRefusal r).outp = s.outp := rfl
@[simp] theorem State.recordRefusal_inp (r : RefuseReason) : (s.recordRefusal r).inp = s.inp := rfl
@[simp] theorem State.recordRefusal_uart (r : RefuseReason) : (s.recordRefusal r).uart = s.uart := rfl
@[simp] theorem State.recordRefusal_main (r : RefuseReason) : (s.recordRefusal r).main = s.main := rfl
@[simp] theorem State.recordRefusal_tickPending (r : RefuseReason) : (s.recordRefusal r).tickPending = s.tickPending := rfl
@[simp] theorem State.recordRefusal_gie (r : RefuseReason) : (s.recordRefusal r).gie = s.gie := rfl
@[simp] theorem State.recordRefusal_faults (r : RefuseReason) : (s.recordRefusal r).faults = s.faults := rfl
@[simp] theorem State.recordRefusal_trace (r : RefuseReason) : (s.recordRefusal r).trace = s.trace := rfl
@[simp] theorem State.recordRefusal_refused (r : RefuseReason) : (s.recordRefusal r).refused = true := rfl
@[simp] theorem State.recordRefusal_mem (r : RefuseReason) : (s.recordRefusal r).mem = s.mem := rfl
@[simp] theorem State.recordRefusal_script (r : RefuseReason) : (s.recordRefusal r).script = s.script := rfl
@[simp] theorem State.recordRefusal_rbResult (r : RefuseReason) : (s.recordRefusal r).rbResult = s.rbResult := rfl
@[simp] theorem State.recordRefusal_refuseReason (r : RefuseReason) : (s.recordRefusal r).refuseReason = some r := rfl
@[simp] theorem State.recordRefusal_bench (r : RefuseReason) : (s.recordRefusal r).bench = s.bench := rfl

@[simp] theorem State.setSlot_rx (i : SlotId) (q : List Byte) : (s.setSlot i q).rx = s.rx := rfl
@[simp] theorem State.setSlot_tx (i : SlotId) (q : List Byte) : (s.setSlot i q).tx = s.tx := rfl
@[simp] theorem State.setSlot_dup (i : SlotId) (q : List Byte) : (s.setSlot i q).dup = s.dup := rfl
@[simp] theorem State.setSlot_fc (i : SlotId) (q : List Byte) : (s.setSlot i q).fc = s.fc := rfl
@[simp] theorem State.setSlot_txie (i : SlotId) (q : List Byte) : (s.setSlot i q).txie = s.txie := rfl
@[simp] theorem State.setSlot_pe (i : SlotId) (q : List Byte) : (s.setSlot i q).pe = s.pe := rfl
@[simp] theorem State.setSlot_laserOut (i : SlotId) (q : List Byte) : (s.setSlot i q).laserOut = s.laserOut := rfl
@[simp] theorem State.setSlot_outp (i : SlotId) (q : List Byte) : (s.setSlot i q).outp = s.outp := rfl
@[simp] theorem State.setSlot_inp (i : SlotId) (q : List Byte) : (s.setSlot i q).inp = s.inp := rfl
@[simp] theorem State.setSlot_uart (i : SlotId) (q : List Byte) : (s.setSlot i q).uart = s.uart := rfl
@[simp] theorem State.setSlot_main (i : SlotId) (q : List Byte) : (s.setSlot i q).main = s.main.setSlot i q := rfl
@[simp] theorem State.setSlot_tickPending (i : SlotId) (q : List Byte) : (s.setSlot i q).tickPending = s.tickPending := rfl
@[simp] theorem State.setSlot_gie (i : SlotId) (q : List Byte) : (s.setSlot i q).gie = s.gie := rfl
@[simp] theorem State.setSlot_faults (i : SlotId) (q : List Byte) : (s.setSlot i q).faults = s.faults := rfl
@[simp] theorem State.setSlot_trace (i : SlotId) (q : List Byte) : (s.setSlot i q).trace = s.trace := rfl
@[simp] theorem State.setSlot_refused (i : SlotId) (q : List Byte) : (s.setSlot i q).refused = s.refused := rfl
@[simp] theorem State.setSlot_mem (i : SlotId) (q : List Byte) : (s.setSlot i q).mem = s.mem := rfl
@[simp] theorem State.setSlot_script (i : SlotId) (q : List Byte) : (s.setSlot i q).script = s.script := rfl
@[simp] theorem State.setSlot_rbResult (i : SlotId) (q : List Byte) : (s.setSlot i q).rbResult = s.rbResult := rfl
@[simp] theorem State.setSlot_refuseReason (i : SlotId) (q : List Byte) : (s.setSlot i q).refuseReason = s.refuseReason := rfl
@[simp] theorem State.setSlot_bench (i : SlotId) (q : List Byte) : (s.setSlot i q).bench = s.bench := rfl

@[simp] theorem State.ret_rx (v : RetVal) : (s.ret v).rx = s.rx := rfl
@[simp] theorem State.ret_tx (v : RetVal) : (s.ret v).tx = s.tx := rfl
@[simp] theorem State.ret_dup (v : RetVal) : (s.ret v).dup = s.dup := rfl
@[simp] theorem State.ret_fc (v : RetVal) : (s.ret v).fc = s.fc := rfl
@[simp] theorem State.ret_txie (v : RetVal) : (s.ret v).txie = s.txie := rfl
@[simp] theorem State.ret_pe (v : RetVal) : (s.ret v).pe = s.pe := rfl
@[simp] theorem State.ret_laserOut (v : RetVal) : (s.ret v).laserOut = s.laserOut := rfl
@[simp] theorem State.ret_outp (v : RetVal) : (s.ret v).outp = s.outp := rfl
@[simp] theorem State.ret_inp (v : RetVal) : (s.ret v).inp = s.inp := rfl
@[simp] theorem State.ret_uart (v : RetVal) : (s.ret v).uart = s.uart := rfl
@[simp] theorem State.ret_main (v : RetVal) : (s.ret v).main = s.main := rfl
@[simp] theorem State.ret_tickPending (v : RetVal) : (s.ret v).tickPending = s.tickPending := rfl
@[simp] theorem State.ret_gie (v : RetVal) : (s.ret v).gie = s.gie := rfl
@[simp] theorem State.ret_faults (v : RetVal) : (s.ret v).faults = s.faults := rfl
@[simp] theorem State.ret_trace (v : RetVal) : (s.ret v).trace = s.trace ++ [.ret v] := rfl
@[simp] theorem State.ret_refused (v : RetVal) : (s.ret v).refused = s.refused := rfl
@[simp] theorem State.ret_mem (v : RetVal) : (s.ret v).mem = s.mem := rfl
@[simp] theorem State.ret_script (v : RetVal) : (s.ret v).script = s.script := rfl
@[simp] theorem State.ret_rbResult (v : RetVal) : (s.ret v).rbResult = s.rbResult := rfl
@[simp] theorem State.ret_refuseReason (v : RetVal) : (s.ret v).refuseReason = s.refuseReason := rfl
@[simp] theorem State.ret_bench (v : RetVal) : (s.ret v).bench = s.bench := rfl

@[simp] theorem State.sendWire_rx (b : Byte) : (s.sendWire b).rx = s.rx := rfl
@[simp] theorem State.sendWire_tx (b : Byte) : (s.sendWire b).tx = s.tx := rfl
@[simp] theorem State.sendWire_dup (b : Byte) : (s.sendWire b).dup = s.dup := rfl
@[simp] theorem State.sendWire_fc (b : Byte) : (s.sendWire b).fc = s.fc := rfl
@[simp] theorem State.sendWire_txie (b : Byte) : (s.sendWire b).txie = s.txie := rfl
@[simp] theorem State.sendWire_pe (b : Byte) : (s.sendWire b).pe = s.pe := rfl
@[simp] theorem State.sendWire_laserOut (b : Byte) : (s.sendWire b).laserOut = s.laserOut := rfl
@[simp] theorem State.sendWire_outp (b : Byte) : (s.sendWire b).outp = s.outp := rfl
@[simp] theorem State.sendWire_inp (b : Byte) : (s.sendWire b).inp = s.inp := rfl
@[simp] theorem State.sendWire_uart (b : Byte) : (s.sendWire b).uart = { s.uart with txFree := false } := rfl
@[simp] theorem State.sendWire_main (b : Byte) : (s.sendWire b).main = s.main := rfl
@[simp] theorem State.sendWire_tickPending (b : Byte) : (s.sendWire b).tickPending = s.tickPending := rfl
@[simp] theorem State.sendWire_gie (b : Byte) : (s.sendWire b).gie = s.gie := rfl
@[simp] theorem State.sendWire_faults (b : Byte) : (s.sendWire b).faults = s.faults := rfl
@[simp] theorem State.sendWire_trace (b : Byte) : (s.sendWire b).trace = s.trace ++ [.tx b] := rfl
@[simp] theorem State.sendWire_refused (b : Byte) : (s.sendWire b).refused = s.refused := rfl
@[simp] theorem State.sendWire_mem (b : Byte) : (s.sendWire b).mem = s.mem := rfl
@[simp] theorem State.sendWire_script (b : Byte) : (s.sendWire b).script = s.script := rfl
@[simp] theorem State.sendWire_rbResult (b : Byte) : (s.sendWire b).rbResult = s.rbResult := rfl
@[simp] theorem State.sendWire_refuseReason (b : Byte) : (s.sendWire b).refuseReason = s.refuseReason := rfl
@[simp] theorem State.sendWire_bench (b : Byte) : (s.sendWire b).bench = s.bench := rfl

@[simp] theorem State.ringResult_rx (r : RingResult) : (s.ringResult r).rx = s.rx := rfl
@[simp] theorem State.ringResult_tx (r : RingResult) : (s.ringResult r).tx = s.tx := rfl
@[simp] theorem State.ringResult_dup (r : RingResult) : (s.ringResult r).dup = s.dup := rfl
@[simp] theorem State.ringResult_fc (r : RingResult) : (s.ringResult r).fc = s.fc := rfl
@[simp] theorem State.ringResult_txie (r : RingResult) : (s.ringResult r).txie = s.txie := rfl
@[simp] theorem State.ringResult_pe (r : RingResult) : (s.ringResult r).pe = s.pe := rfl
@[simp] theorem State.ringResult_laserOut (r : RingResult) : (s.ringResult r).laserOut = s.laserOut := rfl
@[simp] theorem State.ringResult_outp (r : RingResult) : (s.ringResult r).outp = s.outp := rfl
@[simp] theorem State.ringResult_inp (r : RingResult) : (s.ringResult r).inp = s.inp := rfl
@[simp] theorem State.ringResult_uart (r : RingResult) : (s.ringResult r).uart = s.uart := rfl
@[simp] theorem State.ringResult_main (r : RingResult) : (s.ringResult r).main = s.main := rfl
@[simp] theorem State.ringResult_tickPending (r : RingResult) : (s.ringResult r).tickPending = s.tickPending := rfl
@[simp] theorem State.ringResult_gie (r : RingResult) : (s.ringResult r).gie = s.gie := rfl
@[simp] theorem State.ringResult_faults (r : RingResult) : (s.ringResult r).faults = s.faults := rfl
@[simp] theorem State.ringResult_trace (r : RingResult) : (s.ringResult r).trace = s.trace := rfl
@[simp] theorem State.ringResult_refused (r : RingResult) : (s.ringResult r).refused = s.refused := rfl
@[simp] theorem State.ringResult_mem (r : RingResult) : (s.ringResult r).mem = s.mem := rfl
@[simp] theorem State.ringResult_script (r : RingResult) : (s.ringResult r).script = s.script := rfl
@[simp] theorem State.ringResult_rbResult (r : RingResult) : (s.ringResult r).rbResult = some r := rfl
@[simp] theorem State.ringResult_refuseReason (r : RingResult) : (s.ringResult r).refuseReason = s.refuseReason := rfl
@[simp] theorem State.ringResult_bench (r : RingResult) : (s.ringResult r).bench = s.bench := rfl

@[simp] theorem State.withScript_rx (l : List Input) : (s.withScript l).rx = s.rx := rfl
@[simp] theorem State.withScript_tx (l : List Input) : (s.withScript l).tx = s.tx := rfl
@[simp] theorem State.withScript_dup (l : List Input) : (s.withScript l).dup = s.dup := rfl
@[simp] theorem State.withScript_fc (l : List Input) : (s.withScript l).fc = s.fc := rfl
@[simp] theorem State.withScript_txie (l : List Input) : (s.withScript l).txie = s.txie := rfl
@[simp] theorem State.withScript_pe (l : List Input) : (s.withScript l).pe = s.pe := rfl
@[simp] theorem State.withScript_laserOut (l : List Input) : (s.withScript l).laserOut = s.laserOut := rfl
@[simp] theorem State.withScript_outp (l : List Input) : (s.withScript l).outp = s.outp := rfl
@[simp] theorem State.withScript_inp (l : List Input) : (s.withScript l).inp = s.inp := rfl
@[simp] theorem State.withScript_uart (l : List Input) : (s.withScript l).uart = s.uart := rfl
@[simp] theorem State.withScript_main (l : List Input) : (s.withScript l).main = s.main := rfl
@[simp] theorem State.withScript_tickPending (l : List Input) : (s.withScript l).tickPending = s.tickPending := rfl
@[simp] theorem State.withScript_gie (l : List Input) : (s.withScript l).gie = s.gie := rfl
@[simp] theorem State.withScript_faults (l : List Input) : (s.withScript l).faults = s.faults := rfl
@[simp] theorem State.withScript_trace (l : List Input) : (s.withScript l).trace = s.trace := rfl
@[simp] theorem State.withScript_refused (l : List Input) : (s.withScript l).refused = s.refused := rfl
@[simp] theorem State.withScript_mem (l : List Input) : (s.withScript l).mem = s.mem := rfl
@[simp] theorem State.withScript_script (l : List Input) : (s.withScript l).script = l := rfl
@[simp] theorem State.withScript_rbResult (l : List Input) : (s.withScript l).rbResult = s.rbResult := rfl
@[simp] theorem State.withScript_refuseReason (l : List Input) : (s.withScript l).refuseReason = s.refuseReason := rfl
@[simp] theorem State.withScript_bench (l : List Input) : (s.withScript l).bench = s.bench := rfl

@[simp] theorem State.withInput_rx (i : Input) : (s.withInput i).rx = s.rx := rfl
@[simp] theorem State.withInput_tx (i : Input) : (s.withInput i).tx = s.tx := rfl
@[simp] theorem State.withInput_dup (i : Input) : (s.withInput i).dup = s.dup := rfl
@[simp] theorem State.withInput_fc (i : Input) : (s.withInput i).fc = s.fc := rfl
@[simp] theorem State.withInput_txie (i : Input) : (s.withInput i).txie = s.txie := rfl
@[simp] theorem State.withInput_pe (i : Input) : (s.withInput i).pe = s.pe := rfl
@[simp] theorem State.withInput_laserOut (i : Input) : (s.withInput i).laserOut = s.laserOut := rfl
@[simp] theorem State.withInput_outp (i : Input) : (s.withInput i).outp = s.outp := rfl
@[simp] theorem State.withInput_inp (i : Input) : (s.withInput i).inp = s.inp := rfl
@[simp] theorem State.withInput_uart (i : Input) : (s.withInput i).uart = s.uart := rfl
@[simp] theorem State.withInput_main (i : Input) : (s.withInput i).main = s.main := rfl
@[simp] theorem State.withInput_tickPending (i : Input) : (s.withInput i).tickPending = s.tickPending := rfl
@[simp] theorem State.withInput_gie (i : Input) : (s.withInput i).gie = s.gie := rfl
@[simp] theorem State.withInput_faults (i : Input) : (s.withInput i).faults = s.faults := rfl
@[simp] theorem State.withInput_trace (i : Input) : (s.withInput i).trace = s.trace := rfl
@[simp] theorem State.withInput_refused (i : Input) : (s.withInput i).refused = s.refused := rfl
@[simp] theorem State.withInput_mem (i : Input) : (s.withInput i).mem = s.mem := rfl
@[simp] theorem State.withInput_script (i : Input) : (s.withInput i).script = i :: s.script := rfl
@[simp] theorem State.withInput_rbResult (i : Input) : (s.withInput i).rbResult = s.rbResult := rfl
@[simp] theorem State.withInput_refuseReason (i : Input) : (s.withInput i).refuseReason = s.refuseReason := rfl
@[simp] theorem State.withInput_bench (i : Input) : (s.withInput i).bench = s.bench := rfl

/-! The two slots of the mainline (R190). -/

@[simp] theorem MainState.setSlot_top (m : MainState) (q : List Byte) :
    m.setSlot .top q = { m with mode := Mode.ofQueue q } := rfl
@[simp] theorem MainState.setSlot_nested (m : MainState) (q : List Byte) :
    m.setSlot .nested q = { m with nested := Nested.ofQueue q } := rfl
@[simp] theorem Mode.ofQueue_nil : Mode.ofQueue [] = .idle := rfl
@[simp] theorem Mode.ofQueue_cons (b : Byte) (q : List Byte) : Mode.ofQueue (b :: q) = .sending b q := rfl
@[simp] theorem Nested.ofQueue_nil : Nested.ofQueue [] = .idle := rfl
@[simp] theorem Nested.ofQueue_cons (b : Byte) (q : List Byte) : Nested.ofQueue (b :: q) = .sending b q := rfl

end Sys2Proof.Machine
end

