-- ==== Sys2Proof/Laws/Ops.lean ====
section
/-! SUPPORT. For each shared operation, once, everything it can do: what must hold of the state and what the next state is
when it answers one. -/

namespace Sys2Proof.Machine

variable {s t : State}

/-- A live state passes the guard. -/
theorem guardLive_of_live (h : s.live) (k : Result) : guardLive s k = k := by
  simp [guardLive, h.1, h.2]

/-- The guard answers a next state exactly when the state is live and the transition does. -/
theorem guardLive_next {k : Result} : guardLive s k = .next t ↔ s.live ∧ k = .next t := by
  unfold guardLive State.live
  cases s.faults <;> cases s.refused <;> simp

/-- A recorded fault stops every transition. -/
theorem guardLive_fault {r : FaultReason} {rest : List FaultReason} (h : s.faults = r :: rest) (k : Result) :
    guardLive s k = .fault (.quiescentAfterFault r) := by
  simp [guardLive, h]

/-- A recorded refusal stops every transition. -/
theorem guardLive_refused (h : s.faults = []) (h' : s.refused = true) (k : Result) :
    guardLive s k = .fault .quiescentAfterRefusal := by
  simp [guardLive, h, h']

theorem enterHandler_next {e : Bool} {body : State → State} :
    enterHandler e body s = .next t ↔ s.live ∧ e = true ∧ t = body s := by
  rw [enterHandler, guardLive_next]
  cases e <;> simp [returnFromHandler, eq_comm]

theorem admitEvent_next {e : Bool} {k : Result} : admitEvent e k s = .next t ↔ s.live ∧ e = true ∧ k = .next t := by
  rw [admitEvent, guardLive_next]
  cases e <;> simp

theorem unitStep_next {body : State → State} : unitStep body s = .next t ↔ s.live ∧ t = body s := by
  rw [unitStep, guardLive_next, Host.Outcome.next.injEq, eq_comm (a := t)]

/-- An admitted operation runs in its slot; any other is refused and writes nothing else. -/
theorem admitOp_next {k : SlotId → Result} :
    admitOp s k = .next t ↔ s.live ∧ ((∃ slot, admissionSlot s = some slot ∧ k slot = .next t) ∨
      (admissionSlot s = none ∧ t = s.recordRefusal .issueWhileBusy)) := by
  rw [admitOp, guardLive_next]
  cases admissionSlot s <;> simp [refuse, eq_comm]

theorem admitTop_next {k : Result} :
    admitTop s k = .next t ↔ s.live ∧ ((admissionSlot s = some .top ∧ k = .next t) ∨
      (admissionSlot s ≠ some .top ∧ t = s.recordRefusal .issueWhileBusy)) := by
  rw [admitTop, guardLive_next]
  rcases h : admissionSlot s with _ | _ | _ <;> simp [refuse, eq_comm]

theorem admitIdleReturn_next {k : Result} :
    admitIdleReturn s k = .next t ↔ s.live ∧ ((admissionSlot s = some .nested ∧ k = .next t) ∨
      (admissionSlot s ≠ some .nested ∧ t = s.recordRefusal .idleReturnOutsideIdle)) := by
  rw [admitIdleReturn, guardLive_next]
  rcases h : admissionSlot s with _ | _ | _ <;> simp [refuse, eq_comm]

/-- A transition that can raise completes or records its fault. -/
theorem settle_next {r : Except FaultReason State} :
    settle s r = .next t ↔ r = .ok t ∨ ∃ f, r = .error f ∧ t = s.recordFault f := by
  cases r <;> simp [settle, raise, eq_comm]

/-- R191: when the slot of an operation is the top one. -/
theorem admissionSlot_top : admissionSlot s = some .top ↔ s.main.mode = .idle := by
  unfold admissionSlot
  cases s.main.mode <;> simp

/-- R191: when the slot of an operation is the nested one. -/
theorem admissionSlot_nested : admissionSlot s = some .nested ↔
    s.main.mode = .reading ∧ s.main.inIdle = true ∧ s.main.nested = .idle := by
  unfold admissionSlot
  cases s.main.mode <;> simp

/-- R195: what one enqueue does. -/
theorem sendStep_of_not_full {slot : SlotId} {b : Byte} {rest : List Byte} (h : s.tx.isFull = false) :
    sendStep slot b rest s =
      ({ s with
          tx := { s.tx.slotPut s.tx.head b with head := ringNext Config.txCap s.tx.head }
          txie := true } : State).setSlot slot rest := by
  simp [sendStep, RingBuf.push_of_not_isFull b h]

/-- R193, R194: an issued send enqueues its first byte, or waits with all of them while the TX ring is full. -/
theorem startSending_cases (slot : SlotId) (b : Byte) (rest : List Byte) (s : State) :
    (s.tx.isFull = true ∧ startSending slot b rest s = s.setSlot slot (b :: rest)) ∨
    (s.tx.isFull = false ∧ startSending slot b rest s = sendStep slot b rest (s.setSlot slot (b :: rest))) := by
  cases h : s.tx.isFull <;> simp [startSending, h]

/-- R207: the three ways of accounting a dequeued byte. -/
theorem chunkAccount_cases (s : State) :
    (s.fc.consumed.toNat + 1 = Config.chunkSize ∧ s.fc.pendingAcks.toNat = Config.pendingAcksMax ∧
      chunkAccount s = .error .ackCounterOverflow) ∨
    (s.fc.consumed.toNat + 1 = Config.chunkSize ∧ s.fc.pendingAcks.toNat ≠ Config.pendingAcksMax ∧
      chunkAccount s = .ok { s with fc := { consumed := 0, pendingAcks := s.fc.pendingAcks + 1 }, txie := true }) ∨
    (s.fc.consumed.toNat + 1 ≠ Config.chunkSize ∧
      chunkAccount s = .ok { s with fc := { s.fc with consumed := s.fc.consumed + 1 } }) := by
  unfold chunkAccount
  split_ifs with h h'
  · exact .inl ⟨h, h', rfl⟩
  · exact .inr (.inl ⟨h, h', rfl⟩)
  · exact .inr (.inr ⟨h, rfl⟩)

/-- R206: a take that completes either found nothing or dequeued the oldest byte, accounted it and returned it. -/
theorem rxTake_ok (h : rxTake s = .ok t) :
    (s.rx.isEmpty = true ∧ t = s) ∨
    (s.rx.isEmpty = false ∧ ∃ u,
      chunkAccount { s with rx := { s.rx with tail := ringNext Config.rxCap s.rx.tail } } = .ok u ∧
      t = u.ret (.byte (s.rx.slotAt s.rx.tail))) := by
  unfold rxTake at h
  rcases s.rx.pop_cases with ⟨he, hp⟩ | ⟨he, hp⟩ <;> rw [hp] at h
  · left
    simp only [Except.ok.injEq] at h
    exact ⟨he, h.symm⟩
  · right
    refine ⟨he, ?_⟩
    simp only [] at h
    cases hc : chunkAccount { s with rx := { s.rx with tail := ringNext Config.rxCap s.rx.tail } } with
    | error f => rw [hc] at h; simp [Except.map] at h
    | ok u =>
      rw [hc] at h
      simp only [Except.map, Except.ok.injEq] at h
      exact ⟨u, rfl, h.symm⟩

/-- R206, R207: a take raises the acknowledgment overflow and nothing else. -/
theorem rxTake_error {f : FaultReason} (h : rxTake s = .error f) : f = .ackCounterOverflow ∧ s.rx.isEmpty = false := by
  unfold rxTake at h
  rcases s.rx.pop_cases with ⟨he, hp⟩ | ⟨he, hp⟩ <;> rw [hp] at h
  · simp at h
  · refine ⟨?_, he⟩
    simp only [] at h
    rcases chunkAccount_cases { s with rx := { s.rx with tail := ringNext Config.rxCap s.rx.tail } } with
      ⟨_, _, hc⟩ | ⟨_, _, hc⟩ | ⟨_, hc⟩ <;> rw [hc] at h <;> simp [Except.map] at h
    exact h.symm

/-- R194: a waiting send continues exactly while the TX ring is not full. -/
theorem resumeSending_next {slot : SlotId} {b : Byte} {rest : List Byte} :
    resumeSending slot b rest s = .next t ↔ s.tx.isFull = false ∧ t = sendStep slot b rest s := by
  cases h : s.tx.isFull <;> simp [resumeSending, h, eq_comm]

/-- R194, R210, R211: everything a continuation step of MAIN can do. -/
theorem mainStep_next (h : mainStep s = .next t) :
    s.live ∧
    ((∃ b rest, s.main.mode = .sending b rest ∧ s.tx.isFull = false ∧ t = sendStep .top b rest s) ∨
     (∃ b rest, s.main.mode = .reading ∧ s.main.inIdle = true ∧ s.main.nested = .sending b rest ∧
        s.tx.isFull = false ∧ t = sendStep .nested b rest s) ∨
     (s.main.mode = .reading ∧ s.main.inIdle = false ∧ s.rx.isEmpty = true ∧ t = idleIteration s) ∨
     (s.main.mode = .reading ∧ s.main.inIdle = false ∧ s.rx.isEmpty = false ∧ settle s (finishWait s) = .next t)) := by
  obtain ⟨hl, h⟩ := guardLive_next.mp h
  refine ⟨hl, ?_⟩
  cases hm : s.main.mode with
  | idle => simp [hm] at h
  | sending b rest =>
    left
    simp only [hm] at h
    exact ⟨b, rest, rfl, resumeSending_next.mp h⟩
  | reading =>
    right
    simp only [hm] at h
    cases hi : s.main.inIdle with
    | true =>
      left
      simp only [hi, if_true] at h
      cases hn : s.main.nested with
      | idle => simp [hn] at h
      | sending b rest =>
        simp only [hn] at h
        exact ⟨b, rest, rfl, rfl, rfl, resumeSending_next.mp h⟩
    | false =>
      right
      simp only [hi, Bool.false_eq_true, if_false] at h
      cases he : s.rx.isEmpty with
      | true =>
        left
        simp only [he, if_true, Host.Outcome.next.injEq] at h
        exact ⟨rfl, rfl, rfl, h.symm⟩
      | false =>
        right
        simp only [he, Bool.false_eq_true, if_false] at h
        exact ⟨rfl, rfl, rfl, h⟩

/-- R180: a payload byte is stored, or dropped with a stop request. -/
theorem rxDeliver_cases (l : Byte) (s : State) :
    (s.rx.isFull = true ∧ rxDeliver l s = s.requestStop .rxBufferOverflow) ∨
    (s.rx.isFull = false ∧ rxDeliver l s =
      { s with rx := { s.rx.slotPut s.rx.head l with head := ringNext Config.rxCap s.rx.head } }) := by
  rcases s.rx.push_cases l with ⟨hf, hp⟩ | ⟨hf, hp⟩ <;> simp [rxDeliver, hf, hp]

/-- R113, R175 to R180: a logical byte is a control event, a stop request or a payload byte. -/
theorem rxDispatch_cases (l : Byte) (s : State) :
    (∃ k, rxDispatch l s = rxControl k s) ∨ rxDispatch l s = rxInvalid s ∨
    (Config.printableMin ≤ l.toNat ∧ rxDispatch l s = rxDeliver l s) := by
  unfold rxDispatch
  split_ifs <;> first | exact .inl ⟨_, rfl⟩ | exact .inr (.inl rfl) | exact .inr (.inr ⟨by omega, rfl⟩)

/-- R215, R217: the buffered byte of an activation. -/
theorem sendBuffered_cases (s : State) :
    (s.tx.isEmpty = true ∧ sendBuffered s = s) ∨
    (s.tx.isEmpty = false ∧ sendBuffered s =
      ({ s with tx := { s.tx with tail := ringNext Config.txCap s.tx.tail } } : State).sendWire (s.tx.slotAt s.tx.tail)) := by
  rcases s.tx.pop_cases with ⟨he, hp⟩ | ⟨he, hp⟩ <;> simp [sendBuffered, he, hp]

/-- Off the bench a step inside a transition is no step of the machine. -/
theorem refuseInner_ne_next : refuseInner s ≠ .next t := by
  simp [refuseInner, guardLive_next]

/-- R280: everything a step that answers a next state can be; off the bench the instruction is a whole transition. -/
theorem step_next (h : step s = .next t) :
    (∃ rest, s.script = .runMain :: rest ∧ mainStep (s.withScript rest) = .next t) ∨
    (∃ f bytes rest i more, s.script = .code f bytes :: rest ∧ decode f bytes = .instr i more ∧
      (isTransition i = true ∨ s.bench = true) ∧ exec i (s.withScript rest) = .next t) ∨
    (∃ f bytes rest e, s.script = .code f bytes :: rest ∧ decode f bytes = .reject e ∧
      rejectUnit e (s.withScript rest) = .next t) := by
  unfold step fetch at h
  cases hs : s.script with
  | nil => simp [hs, awaitChoice, guardLive_next] at h
  | cons x rest =>
    cases x with
    | runMain => exact .inl ⟨rest, rfl, by simpa [hs] using h⟩
    | code f bytes =>
      right
      cases hd : decode f bytes with
      | instr i more =>
        left
        by_cases hb : isTransition i = true ∨ s.bench = true
        · exact ⟨f, bytes, rest, i, more, rfl, hd, hb, by simpa [hs, hd, hb] using h⟩
        · exact absurd (by simpa [hs, hd, hb] using h) refuseInner_ne_next
      | reject e => exact .inr ⟨f, bytes, rest, e, rfl, hd, by simpa [hs, hd] using h⟩

end Sys2Proof.Machine
end

