-- ==== Sys2Proof/Laws/PerInstr.lean ====
section
/-! SUPPORT. The family OpcodeRow: the first byte of an instruction's encoding matches its row of spec/opcode_table.json
(match and mask), for every well-formed instruction. -/

namespace Sys2Proof.Laws

/-- A mask and a match of spec/opcode_table.json. -/
structure OpcodeMatch where
  mask : Byte
  value : Byte
deriving DecidableEq, Repr

/-- The rows of spec/opcode_table.json that an instruction's first byte may match (RX_PAYLOAD has three). -/
def opcodeRows : Instr → List OpcodeMatch
  | .sendByte _ => [⟨0xFF, 0x01⟩]
  | .sendParam _ _ => [⟨0xFF, 0x02⟩]
  | .readByte => [⟨0xFF, 0x03⟩]
  | .bytesAvailable => [⟨0xFF, 0x04⟩]
  | .idleReturn => [⟨0xFF, 0x0F⟩]
  | .setPulseDuration _ => [⟨0xFF, 0x10⟩]
  | .setPulseFrequency _ => [⟨0xFF, 0x11⟩]
  | .startRaster _ _ => [⟨0xFF, 0x12⟩]
  | .setAir _ => [⟨0xFF, 0x20⟩]
  | .setAux1 _ => [⟨0xFF, 0x21⟩]
  | .setAux2 _ => [⟨0xFF, 0x22⟩]
  | .readDoor => [⟨0xFF, 0x28⟩]
  | .readChiller => [⟨0xFF, 0x29⟩]
  | .readLimit _ => [⟨0xFF, 0x2A⟩]
  | .initDone => [⟨0xFF, 0x30⟩]
  | .rbPush _ _ => [⟨0xFF, 0x40⟩]
  | .rbPop _ => [⟨0xFF, 0x41⟩]
  | .rbIsEmpty _ => [⟨0xFF, 0x42⟩]
  | .rbIsFull _ => [⟨0xFF, 0x43⟩]
  | .rbLen _ => [⟨0xFF, 0x44⟩]
  | .evRx => [⟨0xFF, 0x80⟩]
  | .evTxReady => [⟨0xFF, 0x81⟩]
  | .evTick => [⟨0xFF, 0x82⟩]
  | .rxArrive _ => [⟨0xFF, 0x90⟩]
  | .txDone => [⟨0xFF, 0x91⟩]
  | .tick => [⟨0xFF, 0x92⟩]
  | .inputSet _ _ => [⟨0xFF, 0x93⟩]
  | .memWrite _ _ => [⟨0xFF, 0x94⟩]
  | .rxReset => [⟨0xFF, 0x07⟩]
  | .rxStop => [⟨0xFF, 0x01⟩]
  | .rxResume => [⟨0xFF, 0x02⟩]
  | .rxStatus => [⟨0xFF, 0x03⟩]
  | .rxSuperstatus => [⟨0xFF, 0x04⟩]
  | .rxInvalidMarker _ => [⟨0xE0, 0x00⟩]
  | .rxPayload _ => [⟨0xE0, 0x20⟩, ⟨0xC0, 0x40⟩, ⟨0x80, 0x80⟩]
  | .txAck => [⟨0xFF, 0x05⟩]
  | .txStatusEnd => [⟨0xFF, 0x06⟩]
  | .txParamValue _ => [⟨0x80, 0x80⟩]
  | .txParamTag _ => [⟨0x80, 0x00⟩]
  | .txRaw _ => [⟨0x00, 0x00⟩]

/-- Whether a byte matches a row. -/
def OpcodeMatch.matches (m : OpcodeMatch) (b : Byte) : Bool := b &&& m.mask == m.value

/-- The first byte of a well-formed instruction's encoding matches one of its rows. -/
def OpcodeRow.Statement (i : Instr) : Prop :=
  i.wellFormed = true → ∃ b rest, encode i = b :: rest ∧ (opcodeRows i).any (fun m => m.matches b) = true

theorem OpcodeRow.sendByte (b : Byte) : OpcodeRow.Statement (.sendByte b) :=
  fun _ => ⟨_, _, rfl, rfl⟩
theorem OpcodeRow.sendParam (tag : Byte) (value : F64) : OpcodeRow.Statement (.sendParam tag value) :=
  fun _ => ⟨_, _, rfl, rfl⟩
theorem OpcodeRow.readByte : OpcodeRow.Statement .readByte :=
  fun _ => ⟨_, _, rfl, rfl⟩
theorem OpcodeRow.bytesAvailable : OpcodeRow.Statement .bytesAvailable :=
  fun _ => ⟨_, _, rfl, rfl⟩
theorem OpcodeRow.idleReturn : OpcodeRow.Statement .idleReturn :=
  fun _ => ⟨_, _, rfl, rfl⟩
theorem OpcodeRow.setPulseDuration (d : Byte) : OpcodeRow.Statement (.setPulseDuration d) :=
  fun _ => ⟨_, _, rfl, rfl⟩
theorem OpcodeRow.setPulseFrequency (f : U16) : OpcodeRow.Statement (.setPulseFrequency f) :=
  fun _ => ⟨_, _, rfl, rfl⟩
theorem OpcodeRow.startRaster (addr : Addr) (len : Addr) : OpcodeRow.Statement (.startRaster addr len) :=
  fun _ => ⟨_, _, rfl, rfl⟩
theorem OpcodeRow.setAir (v : Bool) : OpcodeRow.Statement (.setAir v) :=
  fun _ => ⟨_, _, rfl, rfl⟩
theorem OpcodeRow.setAux1 (v : Bool) : OpcodeRow.Statement (.setAux1 v) :=
  fun _ => ⟨_, _, rfl, rfl⟩
theorem OpcodeRow.setAux2 (v : Bool) : OpcodeRow.Statement (.setAux2 v) :=
  fun _ => ⟨_, _, rfl, rfl⟩
theorem OpcodeRow.readDoor : OpcodeRow.Statement .readDoor :=
  fun _ => ⟨_, _, rfl, rfl⟩
theorem OpcodeRow.readChiller : OpcodeRow.Statement .readChiller :=
  fun _ => ⟨_, _, rfl, rfl⟩
theorem OpcodeRow.readLimit (k : Byte) : OpcodeRow.Statement (.readLimit k) :=
  fun _ => ⟨_, _, rfl, rfl⟩
theorem OpcodeRow.initDone : OpcodeRow.Statement .initDone :=
  fun _ => ⟨_, _, rfl, rfl⟩
theorem OpcodeRow.rbPush (r : RingId) (b : Byte) : OpcodeRow.Statement (.rbPush r b) :=
  fun _ => ⟨_, _, rfl, rfl⟩
theorem OpcodeRow.rbPop (r : RingId) : OpcodeRow.Statement (.rbPop r) :=
  fun _ => ⟨_, _, rfl, rfl⟩
theorem OpcodeRow.rbIsEmpty (r : RingId) : OpcodeRow.Statement (.rbIsEmpty r) :=
  fun _ => ⟨_, _, rfl, rfl⟩
theorem OpcodeRow.rbIsFull (r : RingId) : OpcodeRow.Statement (.rbIsFull r) :=
  fun _ => ⟨_, _, rfl, rfl⟩
theorem OpcodeRow.rbLen (r : RingId) : OpcodeRow.Statement (.rbLen r) :=
  fun _ => ⟨_, _, rfl, rfl⟩
theorem OpcodeRow.evRx : OpcodeRow.Statement .evRx :=
  fun _ => ⟨_, _, rfl, rfl⟩
theorem OpcodeRow.evTxReady : OpcodeRow.Statement .evTxReady :=
  fun _ => ⟨_, _, rfl, rfl⟩
theorem OpcodeRow.evTick : OpcodeRow.Statement .evTick :=
  fun _ => ⟨_, _, rfl, rfl⟩
theorem OpcodeRow.rxArrive (b : Byte) : OpcodeRow.Statement (.rxArrive b) :=
  fun _ => ⟨_, _, rfl, rfl⟩
theorem OpcodeRow.txDone : OpcodeRow.Statement .txDone :=
  fun _ => ⟨_, _, rfl, rfl⟩
theorem OpcodeRow.tick : OpcodeRow.Statement .tick :=
  fun _ => ⟨_, _, rfl, rfl⟩
theorem OpcodeRow.inputSet (line : InputLine) (v : Bool) : OpcodeRow.Statement (.inputSet line v) :=
  fun _ => ⟨_, _, rfl, rfl⟩
theorem OpcodeRow.memWrite (addr : Addr) (v : Byte) : OpcodeRow.Statement (.memWrite addr v) :=
  fun _ => ⟨_, _, rfl, rfl⟩
theorem OpcodeRow.rxReset : OpcodeRow.Statement .rxReset :=
  fun _ => ⟨_, _, rfl, rfl⟩
theorem OpcodeRow.rxStop : OpcodeRow.Statement .rxStop :=
  fun _ => ⟨_, _, rfl, rfl⟩
theorem OpcodeRow.rxResume : OpcodeRow.Statement .rxResume :=
  fun _ => ⟨_, _, rfl, rfl⟩
theorem OpcodeRow.rxStatus : OpcodeRow.Statement .rxStatus :=
  fun _ => ⟨_, _, rfl, rfl⟩
theorem OpcodeRow.rxSuperstatus : OpcodeRow.Statement .rxSuperstatus :=
  fun _ => ⟨_, _, rfl, rfl⟩
theorem OpcodeRow.rxInvalidMarker (l : Byte) : OpcodeRow.Statement (.rxInvalidMarker l) :=
  fun h => ⟨l, [], rfl, by revert l; decide⟩
theorem OpcodeRow.rxPayload (l : Byte) : OpcodeRow.Statement (.rxPayload l) :=
  fun h => ⟨l, [], rfl, by revert l; decide⟩
theorem OpcodeRow.txAck : OpcodeRow.Statement .txAck :=
  fun _ => ⟨_, _, rfl, rfl⟩
theorem OpcodeRow.txStatusEnd : OpcodeRow.Statement .txStatusEnd :=
  fun _ => ⟨_, _, rfl, rfl⟩
theorem OpcodeRow.txParamValue (g : BitVec 7) : OpcodeRow.Statement (.txParamValue g) :=
  fun _ => ⟨_, _, rfl, by revert g; decide⟩
theorem OpcodeRow.txParamTag (tag : BitVec 7) : OpcodeRow.Statement (.txParamTag tag) :=
  fun _ => ⟨_, _, rfl, by revert tag; decide⟩
theorem OpcodeRow.txRaw (b : Byte) : OpcodeRow.Statement (.txRaw b) :=
  fun _ => ⟨b, [], rfl, by revert b; decide⟩

end Sys2Proof.Laws
end

