-- ==== Sys2Proof/Machine/ScriptText.lean ====
section
/-! DEFINITION. The text of script lines (30_encoding.md R134, R135): words, numbers, character codes and comments, read into
the lines of Machine/Script.lean. Text is a list of characters. A decimal number of `SEND_PARAM` is read as the nearest
binary64 (log 24). -/

namespace Sys2Proof.Machine

/-- A token of a line: a word or number as written, or a character code `'c'`. -/
inductive Token where
  | word (w : List Char)
  | char (c : Char)
deriving DecidableEq, Repr

/-- The word read so far, as a token. -/
def flushWord (acc : List Char) : List Token := if acc = [] then [] else [.word acc.reverse]

/-- R134: the tokens of a line: spaces, tabs and commas separate, `;` starts a comment, `'c'` is a character code. -/
def tokens : List Char → List Char → List Token
  | [], acc => flushWord acc
  | '\'' :: c :: '\'' :: rest, acc => flushWord acc ++ .char c :: tokens rest []
  | c :: rest, acc =>
    if c = ';' then flushWord acc
    else if c = ' ' ∨ c = ',' ∨ c = '\t' then flushWord acc ++ tokens rest []
    else tokens rest (c :: acc)

/-! ## Numbers -/

/-- A decimal digit. -/
def decimalDigit (c : Char) : Option Nat :=
  if '0'.toNat ≤ c.toNat ∧ c.toNat ≤ '9'.toNat then some (c.toNat - '0'.toNat) else none

/-- A hexadecimal digit, of either case. -/
def hexDigit (c : Char) : Option Nat :=
  if 'a'.toNat ≤ c.toNat ∧ c.toNat ≤ 'f'.toNat then some (c.toNat - 'a'.toNat + 10)
  else if 'A'.toNat ≤ c.toNat ∧ c.toNat ≤ 'F'.toNat then some (c.toNat - 'A'.toNat + 10)
  else decimalDigit c

/-- The number that digits of a base stand for, after those already read as `n`. -/
def digitsFrom (base : Nat) (digit : Char → Option Nat) (n : Nat) : List Char → Option Nat
  | [] => some n
  | c :: rest => (digit c).bind fun d => digitsFrom base digit (n * base + d) rest

/-- R134: a number, hexadecimal with `0x` or decimal. -/
def readNat : List Char → Option Nat
  | [] => none
  | '0' :: 'x' :: c :: rest => digitsFrom 16 hexDigit 0 (c :: rest)
  | c :: rest => digitsFrom 10 decimalDigit 0 (c :: rest)

/-- R134: a number or a character code, ASCII by R25. For a character outside ASCII, of which the spec says nothing, the
Unicode code point is a DESIGN CHOICE (log 28); the operand's width still bounds it. -/
def Token.nat : Token → Option Nat
  | .word w => readNat w
  | .char c => some c.toNat

/-- A number within a type of `w` bits (R130, R133). -/
def Token.bits (t : Token) (w : Nat) : Option (BitVec w) :=
  t.nat.bind fun n => if n < 2 ^ w then some (BitVec.ofNat w n) else none

/-- A Boolean operand, 0 or 1. -/
def Token.bool (t : Token) : Option Bool :=
  t.nat.bind fun n => if n = 0 then some false else if n = 1 then some true else none

/-! ## Decimal numbers as binary64 -/

/-- The quotient of two naturals rounded to the nearest integer, ties to even. -/
def quotientTiesEven (a b : Nat) : Nat :=
  let q := a / b
  let r := a % b
  if 2 * r < b then q
  else if b < 2 * r then q + 1
  else q + q % 2

/-- `num / den < 2 ^ k`. -/
def ratioBelow (num den : Nat) (k : Int) : Bool :=
  match k with
  | .ofNat j => decide (num < den * 2 ^ j)
  | .negSucc j => decide (num * 2 ^ (j + 1) < den)

/-- The unit in the last place of a binary64 near `num / den`: its power of two, at least -1074. -/
def ratioUnit (num den : Nat) : Int :=
  let k : Int := (num.log2 : Int) - den.log2
  max ((if ratioBelow num den k then k - 1 else k) - 52) (-1074)

/-- The binary64 nearest to `num / den`, ties to even, an infinity above the finite numbers. -/
def f64OfRatio (negative : Bool) (num den : Nat) : F64 :=
  let e := ratioUnit num den
  let q :=
    match e with
    | .ofNat j => quotientTiesEven num (den * 2 ^ j)
    | .negSucc j => quotientTiesEven (num * 2 ^ (j + 1)) den
  let magnitude := if num = 0 then 0 else min (q + (e + 1074).toNat * 2 ^ 52) (2047 * 2 ^ 52)
  BitVec.ofNat 64 ((if negative then 2 ^ 63 else 0) + magnitude)

/-- The digits after a decimal point: the number they continue and the power of ten of its unit. -/
def readFraction (n den : Nat) : List Char → Option (Nat × Nat)
  | [] => some (n, den)
  | c :: rest => (decimalDigit c).bind fun d => readFraction (n * 10 + d) (den * 10) rest

/-- An unsigned decimal number with an optional point. -/
def readDecimal (n : Nat) : List Char → Option (Nat × Nat)
  | [] => some (n, 1)
  | '.' :: rest => readFraction n 1 rest
  | c :: rest => (decimalDigit c).bind fun d => readDecimal (n * 10 + d) rest

/-- The value operand of `SEND_PARAM`: a decimal number with an optional sign and point, or `NaN`. -/
def Token.value : Token → Option F64
  | .char _ => none
  | .word ['N', 'a', 'N'] => some 0x7FF8000000000000
  | .word ('-' :: c :: rest) => (readDecimal 0 (c :: rest)).map fun r => f64OfRatio true r.1 r.2
  | .word w => if w = [] ∨ w = ['-'] then none else (readDecimal 0 w).map fun r => f64OfRatio false r.1 r.2

/-! ## Lines -/

/-- What the text of one line is. -/
inductive LineText where
  /-- lines of R134, one or, for the pseudo-operations of R135, several; none for a blank or comment line -/
  | lines (ls : List Line)
  /-- `TXALL`: its expansion depends on the state it starts in -/
  | txAll
  /-- no mnemonic, or operands out of their type (R133) -/
  | reject (e : DecodeError)
deriving DecidableEq, Repr

/-- A line whose operands were read, or rejected. -/
def lineOr (o : Option (List Line)) : LineText :=
  match o with
  | some ls => .lines ls
  | none => .reject .operandType

/-- An instruction whose operands were read, or rejected. -/
def issueOr (o : Option Instr) : LineText := lineOr (o.map fun i => [.issue i])

/-- A line that takes no operand. -/
def plainLine (ls : List Line) (args : List Token) : LineText := if args = [] then .lines ls else .reject .operandType

/-- The one operand of a line. -/
def oneOperand {α : Type} (args : List Token) (f : Token → Option α) : Option α :=
  match args with
  | [t] => f t
  | _ => none

/-- R134: the agent of a `RUN` line. -/
def readAgent : List Token → LineText
  | [.word ['R', 'X', 'I']] => .lines [.runRxi]
  | [.word ['T', 'X', 'I']] => .lines [.runTxi]
  | [.word ['T', 'M', 'I']] => .lines [.runTmi]
  | [.word ['M', 'A', 'I', 'N']] => .lines [.runMain]
  | _ => .reject .operandType

/-- The name of an input line: `door`, `chiller`, `limit0` to `limit5`. -/
def readInputLine : Token → Option InputLine
  | .word ['d', 'o', 'o', 'r'] => some .door
  | .word ['c', 'h', 'i', 'l', 'l', 'e', 'r'] => some .chiller
  | .word ['l', 'i', 'm', 'i', 't', c] =>
    (decimalDigit c).bind fun d => if h : d < 6 then some (.limit ⟨d, h⟩) else none
  | _ => none

/-- R134: the operands of an `IN` line. -/
def readInput : List Token → Option (List Line)
  | [l, v] => (readInputLine l).bind fun line => v.bool.map fun b => [.inputLine line b]
  | _ => none

/-- R134: the bytes of a `MEM` line. -/
def readBytes : List Token → Option (List Byte)
  | [] => some []
  | t :: rest => (t.bits 8).bind fun b => (readBytes rest).map fun bs => b :: bs

/-- R134: the operands of a `MEM` line: an address and at least one byte. -/
def readMem : List Token → Option (List Line)
  | a :: b :: rest => (a.bits 16).bind fun addr => (readBytes (b :: rest)).map fun bs => [.mem addr bs]
  | _ => none

/-- R129: the operands of `SEND_PARAM`. -/
def readParam : List Token → Option Instr
  | [t, v] => (t.bits 8).bind fun tag => v.value.map fun x => .sendParam tag x
  | _ => none

/-- R129: the operands of `START_RASTER`. -/
def readRaster : List Token → Option Instr
  | [a, l] => (a.bits 16).bind fun addr => (l.bits 16).map fun len => .startRaster addr len
  | _ => none

/-- R129, R134, R135: a line's first word and its operands. -/
def readMnemonic (w : List Char) (args : List Token) : LineText :=
  if w = ['S', 'E', 'N', 'D', '_', 'B', 'Y', 'T', 'E'] then issueOr (oneOperand args fun t => (t.bits 8).map .sendByte)
  else if w = ['S', 'E', 'N', 'D', '_', 'P', 'A', 'R', 'A', 'M'] then issueOr (readParam args)
  else if w = ['R', 'E', 'A', 'D', '_', 'B', 'Y', 'T', 'E'] then plainLine [.issue .readByte] args
  else if w = ['B', 'Y', 'T', 'E', 'S', '_', 'A', 'V', 'A', 'I', 'L', 'A', 'B', 'L', 'E'] then
    plainLine [.issue .bytesAvailable] args
  else if w = ['I', 'D', 'L', 'E', '_', 'R', 'E', 'T', 'U', 'R', 'N'] then plainLine [.issue .idleReturn] args
  else if w = ['S', 'E', 'T', '_', 'P', 'U', 'L', 'S', 'E', '_', 'D', 'U', 'R', 'A', 'T', 'I', 'O', 'N'] then
    issueOr (oneOperand args fun t => (t.bits 8).map .setPulseDuration)
  else if w = ['S', 'E', 'T', '_', 'P', 'U', 'L', 'S', 'E', '_', 'F', 'R', 'E', 'Q', 'U', 'E', 'N', 'C', 'Y'] then
    issueOr (oneOperand args fun t => (t.bits 16).map .setPulseFrequency)
  else if w = ['S', 'T', 'A', 'R', 'T', '_', 'R', 'A', 'S', 'T', 'E', 'R'] then issueOr (readRaster args)
  else if w = ['S', 'E', 'T', '_', 'A', 'I', 'R'] then issueOr (oneOperand args fun t => t.bool.map .setAir)
  else if w = ['S', 'E', 'T', '_', 'A', 'U', 'X', '1'] then issueOr (oneOperand args fun t => t.bool.map .setAux1)
  else if w = ['S', 'E', 'T', '_', 'A', 'U', 'X', '2'] then issueOr (oneOperand args fun t => t.bool.map .setAux2)
  else if w = ['R', 'E', 'A', 'D', '_', 'D', 'O', 'O', 'R'] then plainLine [.issue .readDoor] args
  else if w = ['R', 'E', 'A', 'D', '_', 'C', 'H', 'I', 'L', 'L', 'E', 'R'] then plainLine [.issue .readChiller] args
  else if w = ['R', 'E', 'A', 'D', '_', 'L', 'I', 'M', 'I', 'T'] then
    issueOr (oneOperand args fun t => (t.bits 8).map .readLimit)
  else if w = ['I', 'N', 'I', 'T', '_', 'D', 'O', 'N', 'E'] then plainLine [.issue .initDone] args
  else if w = ['R', 'X'] then lineOr (oneOperand args fun t => (t.bits 8).map fun b => [.rx b])
  else if w = ['T', 'X', 'D', 'O', 'N', 'E'] then plainLine [.txDone] args
  else if w = ['T', 'I', 'C', 'K'] then plainLine [.tick] args
  else if w = ['R', 'U', 'N'] then readAgent args
  else if w = ['I', 'N'] then lineOr (readInput args)
  else if w = ['M', 'E', 'M'] then lineOr (readMem args)
  else if w = ['R', 'X', 'L'] then lineOr (oneOperand args fun t => (t.bits 8).map rxLogical)
  else if w = ['R', 'X', 'R', 'E', 'S', 'E', 'T'] then plainLine rxResetLines args
  else if w = ['T', 'I', 'C', 'K', 'S'] then lineOr (oneOperand args fun t => t.nat.map ticksLines)
  else if w = ['T', 'X', 'A', 'L', 'L'] then (if args = [] then .txAll else .reject .operandType)
  else .reject .unknownSelector

/-- R134: the text of one line. -/
def readLine (text : List Char) : LineText :=
  match tokens text [] with
  | [] => .lines []
  | .word w :: args => readMnemonic w args
  | .char _ :: _ => .reject .unknownSelector

/-- The inputs that a line of text issues in a state; a rejected line issues none. -/
def LineText.inputs (l : LineText) (s : State) : List Input :=
  match l with
  | .lines ls => scriptOf ls
  | .txAll => scriptOf (txAllLines s)
  | .reject _ => []

end Sys2Proof.Machine
end

