-- ==== Sys2Proof/Tests/Slice0.lean ====
section
/-! SUPPORT. Tests: the checks of WellFormed on ill-formed terms, the decoding of words written out from 30_encoding.md,
one-step tests whose expected values are those of spec/95_test_vectors.md, and for every statement with hypotheses a
concrete state that meets them (`witness_…`, named after the statement). -/

namespace Sys2Proof.Tests

open Sys2Proof Sys2Proof.Machine

set_option Elab.async false

/-! ## Helpers -/

/-- The outcome is a next state with the property `p`. -/
def nextWith (o : Result) (p : State → Bool) : Bool :=
  match o with
  | .next t => p t
  | _ => false

/-- The outcome is the refusal `r`. -/
def refusedWith (o : Result) (r : Refusal) : Bool :=
  match o with
  | .refused x => x == r
  | _ => false

/-- The outcome is the fault `r`. -/
def faultWith (o : Result) (r : Fault) : Bool :=
  match o with
  | .fault x => x == r
  | _ => false

/-- The ring of capacity C that holds `bs`, from index 0. -/
def ringOf (C : Nat) (bs : List Byte) : RingBuf C :=
  bs.foldl (fun r b => (r.push b).getD r) { head := 0, tail := 0, slot := Vector.replicate C 0 }

/-- A ring with given indices. -/
def ringAt (C : Nat) (head tail : Byte) : RingBuf C := { head := head, tail := tail, slot := Vector.replicate C 0 }

/-- Reset and then `INIT_DONE`. -/
def on : State := { State.reset with gie := true }

/-- `on` with a byte waiting in the receiver and a held first copy. -/
def waiting (data prev : Byte) : State :=
  { on with uart := { on.uart with rxFull := true, rxData := data }, dup := { expectFirst := false, prev := prev } }

/-- `on` with these bytes in the RX ring. -/
def withRx (bs : List Byte) : State := { on with rx := ringOf 255 bs }

/-- `on` with these bytes in the TX ring and an armed source. -/
def withTx (bs : List Byte) : State := { on with tx := ringOf 128 bs, txie := true }

/-- `on` with a full RX ring (254 held). -/
def rxFullState : State := { on with rx := ringAt 255 254 0 }

/-- `on` with a full TX ring (127 held) and an armed source. -/
def txFullState : State := { on with tx := ringAt 128 127 0, txie := true }

/-- A state inside an `on_idle` callback whose slot is free. -/
def inCallback : State := { on with main := { mode := .reading, inIdle := true, nested := .idle } }

/-- `on` with a running pulse engine. -/
def withPulse (p : PulseEngine) (m : Memory) : State := { on with pe := p, mem := m, tickPending := true }

/-! ## Parameters -/

/-- 00_scope.md R12: RX_CAP - 1 is at least twice CHUNK_SIZE. -/
theorem test_rx_holds_two_chunks : 2 * Config.chunkSize ≤ Config.rxCap - 1 := by decide

/-- 30_encoding.md R117: the seven control codes differ and lie below PRINTABLE_MIN. -/
theorem test_codes_distinct :
    [Config.codeStop, Config.codeResume, Config.codeStatus, Config.codeSuperstatus, Config.codeAck,
      Config.codeStatusEnd, Config.codeReset].Nodup ∧
    ∀ c ∈ [Config.codeStop, Config.codeResume, Config.codeStatus, Config.codeSuperstatus, Config.codeAck,
      Config.codeStatusEnd, Config.codeReset], c.toNat < Config.printableMin := by decide

/-- R16: the stop reasons a limit switch raises are 0x23 to 0x28. -/
theorem test_limit_codes : Config.stopCode (.limitHit 0) = 0x23 ∧ Config.stopCode (.limitHit 5) = 0x28 := by decide

/-! ## WellFormed refuses ill-formed terms -/

theorem test_ill_formed_marker_payload_byte : (Instr.rxInvalidMarker 0x41).wellFormed = false := by decide
theorem test_ill_formed_marker_stop : (Instr.rxInvalidMarker 0x01).wellFormed = false := by decide
theorem test_ill_formed_marker_resume : (Instr.rxInvalidMarker 0x02).wellFormed = false := by decide
theorem test_ill_formed_marker_status : (Instr.rxInvalidMarker 0x03).wellFormed = false := by decide
theorem test_ill_formed_marker_superstatus : (Instr.rxInvalidMarker 0x04).wellFormed = false := by decide
theorem test_ill_formed_marker_reset : (Instr.rxInvalidMarker 0x07).wellFormed = false := by decide
theorem test_ill_formed_payload : (Instr.rxPayload 0x1F).wellFormed = false := by decide
theorem test_ill_formed_raw : (Instr.txRaw 0x06).wellFormed = false := by decide
theorem test_well_formed_edges :
    (Instr.rxInvalidMarker 0x1F).wellFormed = true ∧ (Instr.rxInvalidMarker 0x05).wellFormed = true ∧
    (Instr.rxPayload 0x20).wellFormed = true ∧ (Instr.txRaw 0x05).wellFormed = true := by decide

/-! ## Decoding: one word of every constructor, written out from R114, R120, R129, R131, R132 -/

theorem test_decode_send_byte : decode .op [0b00000001, 0x3F] = .instr (.sendByte 0x3F) [] := by decide
theorem test_decode_send_param :
    decode .op [0b00000010, 0x78, 0x00, 0x00, 0x00, 0x00, 0x00, 0x00, 0xF8, 0x3F] =
      .instr (.sendParam 0x78 0x3FF8000000000000) [] := by decide
theorem test_decode_reads :
    decode .op [0b00000011] = .instr .readByte [] ∧ decode .op [0b00000100] = .instr .bytesAvailable [] ∧
    decode .op [0b00001111] = .instr .idleReturn [] := by decide
theorem test_decode_pulse :
    decode .op [0b00010000, 0x03] = .instr (.setPulseDuration 3) [] ∧
    decode .op [0b00010001, 0x34, 0x12] = .instr (.setPulseFrequency 0x1234) [] ∧
    decode .op [0b00010010, 0x00, 0x01, 0x03, 0x00] = .instr (.startRaster 0x0100 0x0003) [] := by decide
theorem test_decode_outputs :
    decode .op [0b00100000, 1] = .instr (.setAir true) [] ∧ decode .op [0b00100001, 0] = .instr (.setAux1 false) [] ∧
    decode .op [0b00100010, 1] = .instr (.setAux2 true) [] := by decide
theorem test_decode_inputs :
    decode .op [0b00101000] = .instr .readDoor [] ∧ decode .op [0b00101001] = .instr .readChiller [] ∧
    decode .op [0b00101010, 6] = .instr (.readLimit 6) [] ∧ decode .op [0b00110000] = .instr .initDone [] := by decide
theorem test_decode_ring :
    decode .rb [0b01000000, 1, 0x41] = .instr (.rbPush .tx 0x41) [] ∧ decode .rb [0b01000001, 0] = .instr (.rbPop .rx) [] ∧
    decode .rb [0b01000010, 0] = .instr (.rbIsEmpty .rx) [] ∧ decode .rb [0b01000011, 1] = .instr (.rbIsFull .tx) [] ∧
    decode .rb [0b01000100, 1] = .instr (.rbLen .tx) [] := by decide
theorem test_decode_handlers :
    decode .ev [0b10000000] = .instr .evRx [] ∧ decode .ev [0b10000001] = .instr .evTxReady [] ∧
    decode .ev [0b10000010] = .instr .evTick [] := by decide
theorem test_decode_environment :
    decode .ev [0b10010000, 0x41] = .instr (.rxArrive 0x41) [] ∧ decode .ev [0b10010001] = .instr .txDone [] ∧
    decode .ev [0b10010010] = .instr .tick [] ∧
    decode .ev [0b10010011, 5, 1] = .instr (.inputSet (.limit 3) true) [] ∧
    decode .ev [0b10010100, 0x02, 0x01, 0xFF] = .instr (.memWrite 0x0102 0xFF) [] := by decide
theorem test_decode_inbound :
    decode .wrx [0b00000111] = .instr .rxReset [] ∧ decode .wrx [0b00000001] = .instr .rxStop [] ∧
    decode .wrx [0b00000010] = .instr .rxResume [] ∧ decode .wrx [0b00000011] = .instr .rxStatus [] ∧
    decode .wrx [0b00000100] = .instr .rxSuperstatus [] ∧ decode .wrx [0b00000101] = .instr (.rxInvalidMarker 5) [] ∧
    decode .wrx [0b00011111] = .instr (.rxInvalidMarker 0x1F) [] ∧ decode .wrx [0b00100000] = .instr (.rxPayload 0x20) [] ∧
    decode .wrx [0b01111111] = .instr (.rxPayload 0x7F) [] ∧ decode .wrx [0b11111111] = .instr (.rxPayload 0xFF) [] := by
  decide
theorem test_decode_outbound :
    decode (.wtx .txi) [0b00000101] = .instr .txAck [] ∧ decode (.wtx .sendByte) [0b00000110] = .instr .txStatusEnd [] ∧
    decode (.wtx .sendParam) [0b11011100] = .instr (.txParamValue 0x5C) [] ∧
    decode (.wtx .sendParam) [0b01111000] = .instr (.txParamTag 0x78) [] ∧
    decode (.wtx .sendByte) [0b00000101] = .instr (.txRaw 5) [] := by decide
/-- R133: undefined selectors, `r > 1`, a Boolean above 1, missing operands. -/
theorem test_decode_rejects :
    decode .op [0x13] = .reject .unknownSelector ∧ decode .rb [0x45, 0] = .reject .unknownSelector ∧
    decode .ev [0x95] = .reject .unknownSelector ∧ decode .rb [0x40, 2, 0] = .reject .operandType ∧
    decode .op [0x20, 2] = .reject .operandType ∧ decode .op [0x12, 0, 1, 3] = .reject .operandType ∧
    decode .ev [0x93, 8, 0] = .reject .operandType := by decide
/-- R120: the acknowledgment is the only byte the transmit-ready handler creates. -/
theorem test_decode_txi_only_ack : decode (.wtx .txi) [0x53] = .reject .unknownSelector := by decide
/-- The bare words of the table. -/
theorem test_table_words :
    decodeTableWord 8 0x01 = some (.sendByte 0) ∧ decodeTableWord 8 0x82 = some .evTick ∧
    decodeTableWord 8 0x07 = some .rxReset ∧ decodeTableWord 8 0xFF = some (.rxPayload 0xFF) ∧
    decodeTableWord 8 0x05 = some .txAck ∧ decodeTableWord 8 0x06 = some .txStatusEnd := by decide

/-! ## Ring buffers, 95_test_vectors.md section 2.1 -/

theorem test_ring_fills_at_three :
    (ringOf 4 [0x41, 0x42, 0x43]).len = 3 ∧ (ringOf 4 [0x41, 0x42, 0x43]).push 0x44 = none := by decide
theorem test_ring_head_wraps :
    ((ringOf 4 [0x41, 0x42, 0x43]).pop.bind fun r => (r.2.push 0x44).map fun q => (r.1, q.head, q.tail, q.contents)) =
      some (0x41, 0, 1, [0x42, 0x43, 0x44]) := by decide
theorem test_rb_len : (ringAt 255 2 250).len = 7 := by decide +kernel
theorem test_rb_is_full : (ringAt 128 127 0).isFull = true ∧ (ringAt 128 0 1).isFull = true := by decide +kernel
theorem test_rb_push :
    nextWith (exec (.rbPush .rx 0x20) { on with rx := ringAt 255 254 254 }) fun t =>
      t.rx.head == 0 && t.rx.tail == 254 && t.rx.contents == [0x20] && t.rbResult == some .ok := by decide +kernel
theorem test_rb_push_full :
    nextWith (exec (.rbPush .tx 0x20) txFullState) fun t => t.rbResult == some .full && t.tx.head == 127 := by
  decide +kernel
theorem test_rb_pop :
    nextWith (exec (.rbPop .tx) (withTx [0x41, 0x42])) fun t =>
      t.rbResult == some (.item 0x41) && t.tx.contents == [0x42] := by decide +kernel
theorem test_rb_pop_none : nextWith (exec (.rbPop .rx) on) fun t => t.rbResult == some .none && t.rx.tail == 0 := by
  decide +kernel
theorem test_rb_is_empty : nextWith (exec (.rbIsEmpty .rx) on) fun t => t.rbResult == some (.flag true) := by
  decide +kernel
theorem test_exec_rb_is_full : nextWith (exec (.rbIsFull .tx) txFullState) fun t => t.rbResult == some (.flag true) := by
  decide +kernel
theorem test_exec_rb_len :
    nextWith (exec (.rbLen .rx) { on with rx := ringAt 255 2 250 }) fun t => t.rbResult == some (.len 7) := by
  decide +kernel

/-! ## The receive path, section 2.2 -/

theorem test_ev_rx_second_copy :
    nextWith (exec .evRx (waiting 0x41 0x41)) fun t =>
      t.rx.contents == [0x41] && t.dup.expectFirst && !t.uart.rxFull && t.trace == [] := by decide +kernel
theorem test_ev_rx_overrun :
    nextWith (exec .evRx { on with uart := { on.uart with rxFull := true, rxData := 0x41, rxOvr := true } }) fun t =>
      t.trace == [.stopReq 0x2D] && t.dup == { expectFirst := false, prev := 0x41 } && !t.uart.rxOvr := by decide +kernel
theorem test_rx_reset :
    nextWith (exec .rxReset { on with fc := { consumed := 9, pendingAcks := 1 } }) fun t =>
      t.fc == { consumed := 0, pendingAcks := 1 } && t.dup.expectFirst := by decide +kernel
theorem test_rx_stop : nextWith (exec .rxStop on) fun t => t.trace == [.ctrl .stop] := by decide +kernel
theorem test_rx_resume : nextWith (exec .rxResume on) fun t => t.trace == [.ctrl .resume] := by decide +kernel
theorem test_rx_status : nextWith (exec .rxStatus on) fun t => t.trace == [.ctrl .status] := by decide +kernel
theorem test_rx_superstatus : nextWith (exec .rxSuperstatus on) fun t => t.trace == [.ctrl .superstatus] := by
  decide +kernel
theorem test_rx_invalid_marker :
    nextWith (exec (.rxInvalidMarker 5) on) fun t => t.trace == [.stopReq 0x29] && t.rx.head == 0 := by decide +kernel
theorem test_rx_invalid_marker_ill_formed : refusedWith (exec (.rxInvalidMarker 7) on) .illFormed := by decide +kernel
theorem test_rx_payload_full :
    nextWith (exec (.rxPayload 0x42) rxFullState) fun t => t.trace == [.stopReq 0x21] && t.rx.head == 254 := by
  decide +kernel
theorem test_rx_payload_ill_formed : refusedWith (exec (.rxPayload 0x1F) on) .illFormed := by decide +kernel

/-! ## The mainline, sections 2.3 and 2.4 -/

theorem test_send_byte :
    nextWith (exec (.sendByte 0x3F) .reset) fun t => t.tx.slotAt 0 == 0x3F && t.tx.head == 1 && t.txie := by
  decide +kernel
theorem test_send_byte_full :
    nextWith (exec (.sendByte 0x3F) txFullState) fun t =>
      t.tx.head == 127 && t.main == { on.main with mode := .sending 0x3F [] } := by decide +kernel
theorem test_send_param :
    nextWith (exec (.sendParam 0x78 0x3FF8000000000000) on) fun t =>
      t.tx.contents == [0xDC] && t.main.mode == .sending 0x8B [0x80, 0xC0, 0x78] := by decide +kernel
theorem test_send_param_bad_tag :
    nextWith (exec (.sendParam 0x80 0x3FF0000000000000) on) fun t => t.refuseReason == some .tagNot7Bit := by
  decide +kernel
/-- -1.0, 123.456, 0.0005 and the two ends of the range. -/
theorem test_param_frames :
    (paramFirst 0xBFF0000000000000 :: paramRest 0x78 0xBFF0000000000000) = [0x98, 0xF8, 0xFF, 0xBF, 0x78] ∧
    (paramFirst 0x405EDD2F1A9FBE77 :: paramRest 0x78 0x405EDD2F1A9FBE77) = [0xC0, 0xC4, 0x87, 0xC0, 0x78] ∧
    (paramFirst 0x3F40624DD2F1A9FC :: paramRest 0x78 0x3F40624DD2F1A9FC) = [0x81, 0x80, 0x80, 0xC0, 0x78] ∧
    (paramFirst paramLow :: paramRest 0x78 paramLow) = [0x80, 0x80, 0x80, 0x80, 0x78] ∧
    (paramFirst paramHigh :: paramRest 0x78 paramHigh) = [0xFF, 0xFF, 0xFF, 0xFF, 0x78] := by decide +kernel
/-- 134217.728, -134217.729 and a NaN are out of range. -/
theorem test_param_out_of_range :
    paramInRange 0x4100624DD2F1A9FC = false ∧ paramInRange 0xC100624DD4FDF3B6 = false ∧
    paramInRange 0x7FF8000000000000 = false := by decide +kernel
theorem test_peer_decode : peerDecode 0x98 0xF8 0xFF 0xBF = -1000 := by decide
theorem test_read_byte_chunk :
    nextWith (exec .readByte { withRx [0x41] with fc := { consumed := 15, pendingAcks := 0 } }) fun t =>
      t.trace == [.ret (.byte 0x41)] && t.fc == { consumed := 0, pendingAcks := 1 } && t.txie := by decide +kernel
theorem test_read_byte_counter_overflow :
    nextWith (exec .readByte { withRx [0x41] with fc := { consumed := 15, pendingAcks := 255 } }) fun t =>
      t.faults == [.ackCounterOverflow] && t.rx.contents == [0x41] && t.trace == [] := by decide +kernel
theorem test_read_byte_empty :
    nextWith (exec .readByte on) fun t => t.trace == [.call .underrun] && t.main.mode == .reading := by decide +kernel
theorem test_bytes_available :
    nextWith (exec .bytesAvailable (withRx [0x41])) fun t => t.trace == [.ret (.bool true)] := by decide +kernel
theorem test_idle_return : nextWith (exec .idleReturn inCallback) fun t => !t.main.inIdle && t.main.mode == .reading := by
  decide +kernel
theorem test_idle_return_outside :
    nextWith (exec .idleReturn on) fun t => t.refuseReason == some .idleReturnOutsideIdle && t.refused := by decide +kernel
theorem test_main_step_idle :
    nextWith (mainStep { on with main := { mode := .reading, inIdle := false, nested := .idle } }) fun t =>
      t.trace == [.call .idle] && t.main.inIdle := by decide +kernel
theorem test_nested_send :
    nextWith (exec (.sendByte 0x20) inCallback) fun t => t.tx.contents == [0x20] && t.main == inCallback.main := by
  decide +kernel

/-! ## The transmit-ready handler, section 2.5 -/

theorem test_ev_tx_ready_ack_first :
    nextWith (exec .evTxReady { withTx [0x3F] with fc := { consumed := 0, pendingAcks := 1 } }) fun t =>
      t.trace == [.tx 0x05] && t.fc.pendingAcks == 0 && t.tx.contents == [0x3F] && t.txie && !t.uart.txFree := by
  decide +kernel
theorem test_ev_tx_ready_last_byte :
    nextWith (exec .evTxReady (withTx [0x3F])) fun t => t.trace == [.tx 0x3F] && !t.txie := by decide +kernel
theorem test_tx_ack :
    nextWith (exec .txAck { on with fc := { consumed := 3, pendingAcks := 2 } }) fun t =>
      t.trace == [.tx 0x05] && t.fc == { consumed := 3, pendingAcks := 1 } := by decide +kernel
theorem test_tx_ack_none_pending : refusedWith (exec .txAck on) .notEnabled := by decide +kernel
theorem test_tx_status_end : nextWith (exec .txStatusEnd on) fun t => t.tx.contents == [0x06] && t.txie := by
  decide +kernel
theorem test_tx_param_value : nextWith (exec (.txParamValue 0x5C) on) fun t => t.tx.contents == [0xDC] := by decide +kernel
theorem test_tx_param_tag : nextWith (exec (.txParamTag 0x78) on) fun t => t.tx.contents == [0x78] := by decide +kernel
theorem test_tx_raw : nextWith (exec (.txRaw 0x53) on) fun t => t.tx.contents == [0x53] := by decide +kernel

/-! ## The pulse engine, section 2.6 -/

theorem test_set_pulse_duration :
    nextWith (exec (.setPulseDuration 2) { on with pe := { on.pe with cursor := 0x100, sentinel := 0x103 } }) fun t =>
      t.pe.duration == 2 && t.pe.cursor == 0x103 && t.pe.sentinel == 0x103 := by decide +kernel
theorem test_set_pulse_frequency :
    nextWith (exec (.setPulseFrequency 0x4000) on) fun t => t.pe == { on.pe with frequency := 0x4000 } := by decide +kernel
theorem test_start_raster :
    nextWith (exec (.startRaster 0xFFFE 1) on) fun t =>
      t.pe == { on.pe with cursor := 0xFFFE, sentinel := 0xFFFF, timer := 0xFFFF } := by decide +kernel
theorem test_start_raster_too_long :
    nextWith (exec (.startRaster 0xFFFF 1) on) fun t => t.refuseReason == some .rasterRange && t.pe == on.pe := by
  decide +kernel
/-- Tick 4 of vector 1: the wrap loads 2. -/
theorem test_ev_tick_wraps :
    nextWith (exec .evTick (withPulse { on.pe with frequency := 0x4000, timer := 0xC000, duration := 2 } [])) fun t =>
      t.pe.timer == 0 && t.pe.remaining == 1 && t.laserOut && t.trace == [.laser true] && !t.tickPending := by
  decide +kernel
/-- The first tick of P3: the raster byte 3 is loaded. -/
theorem test_ev_tick_raster :
    let p : PulseEngine := { on.pe with frequency := 0x4000, timer := 0xFFFF, cursor := 0x100, sentinel := 0x103 }
    nextWith (exec .evTick (withPulse p [(0x100, 3), (0x102, 2)])) fun t =>
      t.pe.cursor == 0x101 && t.pe.remaining == 2 && t.pe.timer == 0x3FFF && t.laserOut := by decide +kernel
/-- Vectors 1 and 2: the levels of twelve and of twenty ticks. -/
theorem test_fixed_levels :
    (PulseEngine.ticks [] 12 { on.pe with frequency := 0x4000, duration := 2 }).1 =
      [false, false, false, true, true, false, false, true, true, false, false, true] ∧
    (PulseEngine.ticks [] 10 { on.pe with frequency := 0x5000, duration := 1 }).1 =
      [false, false, false, true, false, false, true, false, false, true] := by decide +kernel

/-! ## Control and the environment, sections 2.7 and 2.8 -/

theorem test_set_air : nextWith (exec (.setAir true) .reset) fun t => t.outp == { air := true, aux1 := false, aux2 := false } := by
  decide +kernel
theorem test_set_aux1 : nextWith (exec (.setAux1 true) .reset) fun t => t.outp == { air := false, aux1 := true, aux2 := false } := by
  decide +kernel
theorem test_set_aux2 : nextWith (exec (.setAux2 true) .reset) fun t => t.outp == { air := false, aux1 := false, aux2 := true } := by
  decide +kernel
theorem test_read_door :
    nextWith (exec .readDoor { on with inp := { on.inp with door := true } }) fun t => t.trace == [.ret (.bool true)] := by
  decide +kernel
theorem test_read_chiller :
    nextWith (exec .readChiller { on with inp := { on.inp with door := true } }) fun t => t.trace == [.ret (.bool false)] := by
  decide +kernel
theorem test_read_limit :
    nextWith (exec (.readLimit 3) { on with inp := { on.inp with limit := on.inp.limit.set 3 true } }) fun t =>
      t.trace == [.ret (.bool true)] := by decide +kernel
theorem test_read_limit_bad : nextWith (exec (.readLimit 6) on) fun t => t.refuseReason == some .badLimitIndex := by
  decide +kernel
theorem test_init_done : nextWith (exec .initDone .reset) fun t => t.gie && !t.txie := by decide +kernel
theorem test_rx_arrive_overrun :
    nextWith (exec (.rxArrive 0x42) (waiting 0x41 0)) fun t => t.uart.rxOvr && t.uart.rxData == 0x41 := by decide +kernel
theorem test_rx_arrive_not_admitted : refusedWith (exec (.rxArrive 0x41) .reset) .notEnabled := by decide +kernel
theorem test_tx_done :
    nextWith (exec .txDone { on with uart := { on.uart with txFree := false } }) fun t => t.uart.txFree := by decide +kernel
theorem test_tick : nextWith (exec .tick on) fun t => t.tickPending := by decide +kernel
theorem test_tick_lost :
    nextWith (exec .tick { on with tickPending := true }) fun t => t.faults == [.tickLost] && t.tickPending := by
  decide +kernel
theorem test_input_set :
    nextWith (exec (.inputSet (.limit 3) true) .reset) fun t => t.inp.limit.toList == [false, false, false, true, false, false] := by
  decide +kernel
theorem test_mem_write : nextWith (exec (.memWrite 0 0xFF) .reset) fun t => t.mem == [(0, 0xFF)] := by decide +kernel
theorem test_mem_write_in_raster :
    nextWith (exec (.memWrite 0x101 9) { on with pe := { on.pe with cursor := 0x100, sentinel := 0x103 } }) fun t =>
      t.faults == [.rasterBufferMutated] && t.mem == [] := by decide +kernel
theorem test_quiescent : faultWith (step { on with faults := [.tickLost] }) (.quiescentAfterFault .tickLost) := by
  decide +kernel
theorem test_fetch_word : nextWith (step (State.reset.withFetchWord 8 0x30)) fun t => t.gie && t.script == [] := by decide +kernel
/-- A ring command is a step inside a transition: a script cannot ask for it, the bench can (R131, R280). -/
theorem test_inner_row_off_the_bench :
    refusedWith (step (on.withScript [(Instr.rbLen .rx).input])) .notATransition := by decide +kernel
theorem test_inner_row_on_the_bench :
    nextWith (step (State.reset.withFetchWord 8 0x44)) fun t => t.rbResult == some (.len 0) := by decide +kernel

/-! ## Script text, R134 -/

/-- `RXL 'A' ; comment`. -/
theorem test_text_pseudo :
    readLine ['R', 'X', 'L', ' ', '\'', 'A', '\'', ' ', ';', ' ', 'x'] = .lines (rxLogical 0x41) := by decide +kernel
/-- `SEND_PARAM 0x78, 1.5` and the binary64 nearest to 0.0005. -/
theorem test_text_send_param :
    readLine ['S', 'E', 'N', 'D', '_', 'P', 'A', 'R', 'A', 'M', ' ', '0', 'x', '7', '8', ',', ' ', '1', '.', '5'] =
      .lines [.issue (.sendParam 0x78 0x3FF8000000000000)] ∧
    f64OfRatio false 5 10000 = 0x3F40624DD2F1A9FC := by decide +kernel
/-- `RX 256`. -/
theorem test_text_operand_type : readLine ['R', 'X', ' ', '2', '5', '6'] = .reject .operandType := by decide +kernel

/-! ## Witnesses: states that meet the hypotheses of the statements -/

theorem witness_StepRunsDecodedInstruction :
    (on.withScript [.code .op [0x01, 0x3F]]).script = .code .op [0x01, 0x3F] :: [] ∧
    decode .op [0x01, 0x3F] = .instr (.sendByte 0x3F) [] ∧ (Instr.sendByte 0x3F).wellFormed = true ∧
    isTransition (.sendByte 0x3F) = true ∧
    decode .wrx [0x01] = .instr .rxStop [] ∧ Instr.rxStop.wellFormed = true ∧ isTransition .rxStop = false ∧
    ({ on with bench := true } : State).bench = true ∧
    (on.withScript [.code .wrx [0x01]]).bench = false ∧ (on.withScript [.code .wrx [0x01]]).live := by decide +kernel

theorem witness_StepWithoutInstruction :
    (on.withScript [.runMain]).script = .runMain :: [] ∧
    (on.withScript [.code .op [0x13]]).live ∧ (on.withScript [.code .op [0x13]]).script = .code .op [0x13] :: [] ∧
    decode .op [0x13] = .reject .unknownSelector ∧ on.live ∧ on.script = [] := by decide +kernel

/-- One byte for each clause, at the edges of the classes. -/
theorem witness_InboundClassesByPriority :
    (0x01 : Byte) = Config.codeStop ∧ (0x02 : Byte) = Config.codeResume ∧ (0x03 : Byte) = Config.codeStatus ∧
    (0x04 : Byte) = Config.codeSuperstatus ∧
    (∀ l ∈ [(0x00 : Byte), 0x05, 0x1F], l ≠ Config.codeStop ∧ l ≠ Config.codeResume ∧ l ≠ Config.codeStatus ∧
      l ≠ Config.codeSuperstatus ∧ l.toNat < Config.printableMin) ∧
    Config.printableMin ≤ (0x20 : Byte).toNat ∧ Config.printableMin ≤ (0xFF : Byte).toNat := by decide

theorem witness_DecodeInvertsEncode : (Instr.sendParam 0x78 0x3FF8000000000000).wellFormed = true := by decide

theorem witness_EncodeInvertsDecode :
    decode .op [0x12, 0x00, 0x01, 0x03, 0x00, 0xAA] = .instr (.startRaster 0x0100 0x0003) [0xAA] := by decide

theorem witness_StepKeepsInvariant :
    (on.withScript [Instr.tick.input]).Inv ∧ step (on.withScript [Instr.tick.input]) = .next { on with tickPending := true } :=
  ⟨by decide +kernel, rfl⟩

theorem witness_ReachableStatesMeetInvariant : Reachable (State.reset.withScript [Instr.initDone.input]) :=
  .start _

theorem witness_TransitionsKeepArming :
    isTransition .tick = true ∧ on.armed ∧ exec .tick on = .next { on with tickPending := true } ∧
    ({ txFullState with tx := ringAt 128 1 0, main := { on.main with mode := .sending 0x3F [] } } : State).armed ∧
    nextWith (mainStep { txFullState with tx := ringAt 128 1 0, main := { on.main with mode := .sending 0x3F [] } })
      (fun _ => true) := ⟨by decide, by decide +kernel, rfl, by decide +kernel, by decide +kernel⟩

/-- A ring that accepts and a full one, at the wrap of the head. -/
theorem witness_RingPushWritesHead :
    (ringAt 255 254 254).valid ∧ ((ringAt 255 254 254).push 0x20).isSome = true ∧
    (ringAt 255 254 0).valid ∧ (ringAt 255 254 0).push 0x20 = none := by decide +kernel

/-- A ring that holds an item at the last index and an empty one. -/
theorem witness_RingPopReadsTail :
    (ringAt 128 0 127).valid ∧ (ringAt 128 0 127).pop.isSome = true ∧ (ringAt 128 5 5).valid ∧ (ringAt 128 5 5).pop = none := by
  decide +kernel

/-- The least and the greatest capacity. -/
theorem witness_RingHoldsItems :
    (ringAt 2 0 1).valid ∧ (ringAt 255 2 250).valid ∧ ((ringAt 255 2 250).push 1).isSome = true ∧
    (ringAt 255 2 250).pop.isSome = true := by decide +kernel

theorem witness_RingIsFifo : 2 ≤ 4 ∧ 4 ≤ 255 ∧ (ringOf 4 [0x41, 0x42]).valid := by decide

theorem witness_RingCommandsComplete :
    (withTx [0x41]).live ∧ ((withTx [0x41]).rx.push 7).isSome = true ∧ ((withTx [0x41]).tx.push 7).isSome = true ∧
    (withTx [0x41]).tx.pop.isSome = true ∧ (withTx [0x41]).rx.pop = none ∧
    rxFullState.live ∧ rxFullState.rx.push 7 = none ∧ rxFullState.rx.pop.isSome = true ∧ rxFullState.tx.pop = none ∧
    txFullState.live ∧ txFullState.tx.push 7 = none := by decide +kernel

theorem witness_EvRxProtocolReset :
    (waiting 0x07 0x41).live ∧ (waiting 0x07 0x41).gie = true ∧ (waiting 0x07 0x41).uart.rxFull = true ∧
    (waiting 0x07 0x41).uart.rxData = Config.codeReset := by decide +kernel

theorem witness_EvRxHoldsFirstCopy :
    let s : State := { on with uart := { on.uart with rxFull := true, rxData := 0x41 } }
    s.live ∧ s.gie = true ∧ s.uart.rxFull = true ∧ s.uart.rxData ≠ Config.codeReset ∧ s.dup.expectFirst = true := by
  decide +kernel

theorem witness_EvRxMismatch :
    (waiting 0x42 0x41).live ∧ (waiting 0x42 0x41).gie = true ∧ (waiting 0x42 0x41).uart.rxFull = true ∧
    (waiting 0x42 0x41).uart.rxData ≠ Config.codeReset ∧ (waiting 0x42 0x41).dup.expectFirst = false ∧
    (waiting 0x42 0x41).uart.rxData ≠ (waiting 0x42 0x41).dup.prev := by decide +kernel

theorem witness_EvRxControlCodes :
    ∀ c ∈ [(Config.codeStop, CtrlKind.stop), (Config.codeResume, .resume), (Config.codeStatus, .status),
      (Config.codeSuperstatus, .superstatus)],
      (waiting c.1 c.1).live ∧ (waiting c.1 c.1).gie = true ∧ (waiting c.1 c.1).uart.rxFull = true ∧
      (waiting c.1 c.1).uart.rxData = c.1 ∧ (waiting c.1 c.1).dup.expectFirst = false ∧
      (waiting c.1 c.1).dup.prev = c.1 := by decide +kernel

theorem witness_EvRxInvalidMarker :
    ∀ l ∈ [(0x00 : Byte), 0x1F],
      (waiting l l).live ∧ (waiting l l).gie = true ∧ (waiting l l).uart.rxFull = true ∧
      isInvalidMarker (waiting l l).uart.rxData = true ∧ (waiting l l).dup.expectFirst = false ∧
      (waiting l l).dup.prev = (waiting l l).uart.rxData := by decide +kernel

theorem witness_EvRxPayload :
    let s := waiting 0x20 0x20
    let t : State := { s with rx := ringAt 255 254 0 }
    (s.live ∧ s.gie = true ∧ s.uart.rxFull = true ∧ Config.printableMin ≤ s.uart.rxData.toNat ∧
      s.dup.expectFirst = false ∧ s.dup.prev = s.uart.rxData ∧ (s.rx.push s.uart.rxData).isSome = true) ∧
    t.live ∧ t.rx.push t.uart.rxData = none := by decide +kernel

theorem witness_ReceiveClassesComplete :
    on.live ∧ isInvalidMarker 0x1F = true ∧ Config.printableMin ≤ (0x20 : Byte).toNat ∧ (on.rx.push 0x20).isSome = true ∧
    rxFullState.live ∧ rxFullState.rx.push 0x20 = none := by decide +kernel

theorem witness_DuplicateDetectorLaws :
    on.live ∧ on.gie = true ∧ on.uart.rxFull = false ∧ on.uart.rxOvr = false ∧ (0x41 : Byte) ≠ Config.codeReset ∧
    (0x42 : Byte) ≠ Config.codeReset ∧ Config.printableMin ≤ (0x20 : Byte).toNat ∧ (on.rx.push 0x20).isSome = true ∧
    (0x41 : Byte) ≠ 0x42 ∧
    ((0x01 : Byte), CtrlKind.stop) ∈ [(Config.codeStop, CtrlKind.stop), (Config.codeResume, .resume),
      (Config.codeStatus, .status), (Config.codeSuperstatus, .superstatus)] ∧
    isInvalidMarker 0x00 = true ∧ isInvalidMarker 0x1F = true ∧
    rxFullState.live ∧ rxFullState.gie = true ∧ rxFullState.uart.rxFull = false ∧ rxFullState.uart.rxOvr = false ∧
    rxFullState.rx.push 0x20 = none := by decide +kernel

/-- Room and no room in the TX ring, in either slot. -/
theorem witness_SendByteEnqueuesOrWaits :
    on.admits .top ∧ (on.tx.push 0x3F).isSome = true ∧ inCallback.admits .nested ∧
    txFullState.admits .top ∧ txFullState.tx.push 0x3F = none ∧
    ({ inCallback with tx := ringAt 128 127 0 } : State).admits .nested ∧ ((ringAt 128 127 1).push 0x3F).isSome = true := by
  decide +kernel

theorem witness_OutboundClassesEnqueue :
    on.admits .top ∧ (on.tx.push 0x53).isSome = true ∧ txFullState.admits .top ∧ txFullState.tx.push 0x53 = none ∧
    ({ inCallback with tx := ringAt 128 127 0 } : State).admits .nested := by decide +kernel

theorem witness_SendParamStartsFrame :
    on.admits .top ∧ inCallback.admits .nested ∧ (0x78 : Byte).getLsbD 7 = false ∧
    paramInRange 0x3FF8000000000000 = true ∧ (on.tx.push (paramFirst 0x3FF8000000000000)).isSome = true ∧
    txFullState.admits .top ∧ txFullState.tx.push (paramFirst 0x3FF8000000000000) = none := by decide +kernel

theorem witness_SendParamRejects :
    on.admits .top ∧ (0x80 : Byte).getLsbD 7 = true ∧ (0x78 : Byte).getLsbD 7 = false ∧
    paramInRange 0x4100624DD2F1A9FC = false := by decide +kernel

/-- A tie of the binary64 rounding: 5 / 2 goes to 2. -/
theorem witness_ParamRoundingIsNearest :
    2 * 5 = 2 * roundTiesEven 5 1 * 2 ^ 1 + 2 ^ 1 ∧ roundTiesEven 5 1 = 2 ∧ roundTiesAway 5 (-1) = 3 ∧ 5 < 2 ^ 54 := by decide

/-- The two ends of the range. -/
theorem witness_ParamFrameRoundTrip : paramInRange paramLow = true ∧ paramInRange paramHigh = true := by decide +kernel

theorem witness_ParamErrorBound : paramInRange paramLow = true ∧ paramInRange 0x3FB0000000000000 = true := by decide +kernel

theorem witness_SendParamQueuesFrame :
    on.admits .top ∧ on.tx.valid ∧ on.tx.contents.length ≤ 122 ∧
    ({ on with tx := ringAt 128 122 0 } : State).tx.contents.length = 122 ∧ (0x78 : Byte).getLsbD 7 = false ∧
    paramInRange 0x3FF8000000000000 = true := by decide +kernel

theorem witness_WaitingSendContinues :
    let s : State := { on with main := { on.main with mode := .sending 0x3F [0x40] } }
    let n : State := { on with main := { mode := .reading, inIdle := true, nested := .sending 0x3F [] } }
    s.live ∧ s.main.mode = .sending 0x3F [0x40] ∧ (s.tx.push 0x3F).isSome = true ∧
    n.live ∧ n.main.nested = .sending 0x3F [] ∧ (n.tx.push 0x3F).isSome = true ∧
    ({ s with tx := ringAt 128 127 0 } : State).tx.push 0x3F = none ∧
    ({ n with tx := ringAt 128 127 0 } : State).tx.push 0x3F = none := by decide +kernel

theorem witness_ReadByteTakesOldest :
    (withRx [0x41]).admits .top ∧ (withRx [0x41]).rx.pop.isSome = true ∧
    (withRx [0x41]).fc.consumed.toNat + 1 ≠ Config.chunkSize ∧ (15 : Byte).toNat + 1 = Config.chunkSize ∧
    (254 : Byte).toNat ≠ Config.pendingAcksMax ∧ (255 : Byte).toNat = Config.pendingAcksMax ∧
    ({ withRx [0x41] with fc := { consumed := 15, pendingAcks := 255 } } : State).admits .top := by decide +kernel

theorem witness_ReadByteWaits :
    let r : State := { withRx [0x47] with main := { mode := .reading, inIdle := false, nested := .idle } }
    on.admits .top ∧ on.rx.isEmpty = true ∧ ({ r with rx := on.rx } : State).live ∧ ({ r with rx := on.rx } : State).rx.isEmpty = true ∧
    r.live ∧ r.main.mode = .reading ∧ r.main.inIdle = false ∧ r.rx.pop.isSome = true ∧
    r.fc.consumed.toNat + 1 ≠ Config.chunkSize ∧
    ({ r with fc := { consumed := 15, pendingAcks := 254 } } : State).fc.consumed.toNat + 1 = Config.chunkSize ∧
    ({ r with fc := { consumed := 15, pendingAcks := 254 } } : State).fc.pendingAcks.toNat ≠ Config.pendingAcksMax ∧
    ({ r with fc := { consumed := 15, pendingAcks := 255 } } : State).fc.pendingAcks.toNat = Config.pendingAcksMax ∧
    ({ r with fc := { consumed := 15, pendingAcks := 255 } } : State).live := by decide +kernel

/-- The full RX ring, one read short of a chunk. -/
theorem witness_ChunkAcknowledgments :
    let s : State := { rxFullState with fc := { consumed := 15, pendingAcks := 3 } }
    s.admits .top ∧ s.rx.valid ∧ s.fc.consumed.toNat < Config.chunkSize ∧ 254 ≤ s.rx.contents.length ∧
    s.fc.pendingAcks.toNat + (s.fc.consumed.toNat + 254) / Config.chunkSize ≤ Config.pendingAcksMax := by decide +kernel

/-- The last legal limit index and the first illegal one. -/
theorem witness_QueriesAnswer :
    on.admits .top ∧ inCallback.admits .nested ∧ (5 : Byte).toNat < 6 ∧ 6 ≤ (6 : Byte).toNat := by decide +kernel

theorem witness_IdleReturnEndsCallback : inCallback.admits .nested ∧ on.live ∧ ¬on.admits .nested := by decide +kernel

theorem witness_BusyMainlineRefuses :
    let s : State := { on with main := { on.main with mode := .sending 0x3F [] } }
    s.live ∧ ¬s.admits .top ∧ ¬s.admits .nested ∧ formatOf (.setAir true) = .op ∧ Instr.setAir true ≠ .idleReturn ∧
    inCallback.admits .nested := by decide +kernel

theorem witness_EvTxReadySends :
    let s : State := { withTx [0x3F] with fc := { consumed := 0, pendingAcks := 1 } }
    let e : State := { on with txie := true }
    s.live ∧ s.gie = true ∧ s.txie = true ∧ s.uart.txFree = true ∧ s.fc.pendingAcks ≠ 0 ∧
    (withTx [0x3F]).live ∧ (withTx [0x3F]).fc.pendingAcks = 0 ∧ (withTx [0x3F]).tx.pop.isSome = true ∧
    e.live ∧ e.txie = true ∧ e.fc.pendingAcks = 0 ∧ e.tx.pop = none := by decide +kernel

theorem witness_AckStageCompletes :
    let s : State := { on with fc := { consumed := 0, pendingAcks := 255 } }
    s.live ∧ s.fc.pendingAcks ≠ 0 := by decide +kernel

theorem witness_TransmitterDrains :
    let s : State := { withTx [0x21] with fc := { consumed := 0, pendingAcks := 2 } }
    s.live ∧ s.gie = true ∧ s.txie = true ∧ s.uart.txFree = true ∧ s.tx.valid ∧
    (s.fc.pendingAcks ≠ 0 ∨ s.tx.contents ≠ []) := by decide +kernel

/-- The largest raster that fits and the smallest that does not, at one address. -/
theorem witness_PulseConfigurationCompletes :
    on.admits .top ∧ inCallback.admits .nested ∧
    (0xFFFE : Addr).toNat + (1 : Addr).toNat ≤ 2 ^ Config.addrW - 1 ∧
    2 ^ Config.addrW - 1 < (0xFFFE : Addr).toNat + (2 : Addr).toNat := by decide +kernel

/-- One state for each of the three cases of a tick: no wrap, a raster load, a fixed load (sums 65535 and 65536). -/
theorem witness_EvTickRunsOnePeriod :
    let a := withPulse { on.pe with frequency := 0x4000, timer := 0xBFFF } []
    let b := withPulse { on.pe with frequency := 0x4000, timer := 0xC000, cursor := 0x100, sentinel := 0x103 } [(0x100, 3)]
    let c := withPulse { on.pe with frequency := 0x4000, timer := 0xC000, duration := 2 } []
    (a.live ∧ a.gie = true ∧ a.tickPending = true ∧ a.pe.timer.toNat + a.pe.frequency.toNat < 2 ^ 16) ∧
    (b.live ∧ 2 ^ 16 ≤ b.pe.timer.toNat + b.pe.frequency.toNat ∧ b.pe.cursor ≠ b.pe.sentinel ∧
      (3 : Byte) = Memory.read b.mem b.pe.cursor.toNat ∧ (0x101 : Addr) = b.pe.cursor + 1) ∧
    (c.live ∧ 2 ^ 16 ≤ c.pe.timer.toNat + c.pe.frequency.toNat ∧ c.pe.cursor = c.pe.sentinel ∧ (2 : Byte) = c.pe.duration) := by
  decide +kernel

theorem witness_TicksDriveEngine : on.live ∧ on.gie = true ∧ on.tickPending = false := by decide +kernel

theorem witness_PulseWidthLevels :
    let p : PulseEngine := { on.pe with frequency := 0x4000, timer := 0xC000, duration := 2 }
    1 ≤ 4 ∧ 2 ^ 16 ≤ p.timer.toNat + p.frequency.toNat ∧ p.timer.toNat + 4 * p.frequency.toNat < 2 * 2 ^ 16 ∧
    (2 : Byte) = (if p.cursor ≠ p.sentinel then Memory.read [] p.cursor.toNat else p.duration) := by decide +kernel

/-- Vector 1.6: the raster 3, 0, 5 with a period of 8 ticks. -/
theorem witness_RasterThenFixedLevels :
    let m : Memory := [(0x300, 3), (0x302, 5)]
    let p : PulseEngine := { on.pe with frequency := 0x2000, timer := 0xFFFF, cursor := 0x300, sentinel := 0x303, duration := 1 }
    0 < p.frequency.toNat ∧ p.frequency.toNat ∣ 2 ^ 16 ∧ 2 ^ 16 ≤ p.timer.toNat + p.frequency.toNat ∧
    p.cursor.toNat + 3 = p.sentinel.toNat ∧
    [3, 0, 5] = (List.range 3).map (fun j => Memory.read m (p.cursor.toNat + j)) ∧
    (∀ w ∈ [(3 : Byte), 0, 5], w.toNat ≤ 2 ^ 16 / p.frequency.toNat) ∧ p.duration.toNat ≤ 2 ^ 16 / p.frequency.toNat := by
  decide +kernel

theorem witness_WrapSpacing : on.pe.frequency = 0 ∧ (0x1000 : U16).toNat < (0x5000 : U16).toNat := by decide +kernel

theorem witness_OutputLinesAreDriven : State.reset.admits .top ∧ inCallback.admits .nested := by decide +kernel

theorem witness_InitDoneEnablesInterrupts : State.reset.admits .top ∧ State.reset.gie = false := by decide +kernel

theorem witness_LinkAndTimerEvents :
    on.live ∧ on.gie = true ∧ on.uart.rxFull = false ∧ (waiting 0x41 0).live ∧ (waiting 0x41 0).uart.rxFull = true ∧
    ({ on with uart := { on.uart with txFree := false } } : State).uart.txFree = false ∧ on.tickPending = false ∧
    ({ on with tickPending := true } : State).live := by decide +kernel

theorem witness_InputLinesAreSet : State.reset.live := by decide +kernel

/-- The last address of the window, and the two addresses next to the window. -/
theorem witness_MemWriteStoresOrFaults :
    let s : State := { on with pe := { on.pe with cursor := 0x100, sentinel := 0x103 } }
    s.live ∧ Memory.wf s.mem = true ∧ s.pe.cursor ≠ s.pe.sentinel ∧
    (s.pe.cursor.toNat ≤ (0x102 : Addr).toNat ∧ (0x102 : Addr).toNat < s.pe.sentinel.toNat) ∧
    ¬(s.pe.cursor ≠ s.pe.sentinel ∧ s.pe.cursor.toNat ≤ (0xFF : Addr).toNat ∧ (0xFF : Addr).toNat < s.pe.sentinel.toNat) ∧
    ¬(s.pe.cursor ≠ s.pe.sentinel ∧ s.pe.cursor.toNat ≤ (0x103 : Addr).toNat ∧ (0x103 : Addr).toNat < s.pe.sentinel.toNat) := by
  decide +kernel

theorem witness_QuiescentForGood :
    ({ on with faults := [.tickLost] } : State).faults ≠ [] ∧ ({ on with refused := true } : State).refused = true := by
  decide +kernel

/-- A transition that records a fault and one that records a refusal. -/
theorem witness_StopsApplyNoOtherWrite :
    nextWith (exec .tick { on with tickPending := true }) (fun t => t.faults != on.faults) ∧
    nextWith (exec .idleReturn on) (fun t => t.refused != on.refused) := by decide +kernel

theorem witness_DisabledAgentsHaveNoStep :
    State.reset.live ∧ State.reset.gie = false ∧ State.reset.uart.rxFull = false ∧ State.reset.txie = false ∧
    ({ on with uart := { on.uart with txFree := false } } : State).live ∧ State.reset.tickPending = false ∧
    State.reset.uart.txFree = true := by decide +kernel

theorem witness_WriteRightsOfAgents :
    isTransition .tick = true ∧ nextWith (exec .tick on) (fun _ => true) ∧ agentOf .tick = .env ∧
    isTransition .evRx = true ∧ nextWith (exec .evRx (waiting 0x41 0x41)) (fun _ => true) ∧ agentOf .evRx = .rxi := by
  decide +kernel

theorem witness_WriteRightsOfMainStep :
    nextWith (mainStep { on with main := { on.main with mode := .sending 0x3F [] } }) (fun _ => true) := by decide +kernel

theorem witness_StepsExtendTrace :
    nextWith (step (on.withScript [Instr.readByte.input])) (fun _ => true) ∧ on.gie = true := by decide +kernel

end Sys2Proof.Tests
end

section
/-! PROOFS. What every transition does to `faults`, `refused`, `trace` and `gie`: one case analysis over the instructions
and MAIN's continuation (`exec_sound`, `mainStep_sound`), from which O56 and O60 are read off. -/

namespace Sys2Proof.Proofs

open Sys2Proof Sys2Proof.Machine

variable {m n : Nat} {s t u : State}

/-! ## Writes that record no stop -/

/-- From `s` to `t` no fault and no refusal is recorded, the trace grows by at most `n` events (R27, R60) and interrupts
that were enabled stay enabled (R341). -/
structure Extends (n : Nat) (s t : State) : Prop where
  faults_eq : t.faults = s.faults
  refused_eq : t.refused = s.refused
  trace_append : ∃ l : List Event, t.trace = s.trace ++ l ∧ l.length ≤ n
  gie_kept : s.gie = true → t.gie = true

/-- A write to fields other than the four that `Extends` speaks of. -/
theorem Extends.silent (hfaults : t.faults = s.faults) (hrefused : t.refused = s.refused)
    (htrace : t.trace = s.trace) (hgie : t.gie = s.gie) : Extends 0 s t :=
  ⟨hfaults, hrefused, ⟨[], by simp [htrace], Nat.le_refl 0⟩, fun h => hgie.trans h⟩

theorem Extends.trans (h : Extends m s t) (h' : Extends n t u) : Extends (m + n) s u := by
  obtain ⟨l, hl, hlm⟩ := h.trace_append
  obtain ⟨l', hl', hln⟩ := h'.trace_append
  refine ⟨h'.faults_eq.trans h.faults_eq, h'.refused_eq.trans h.refused_eq, ⟨l ++ l', ?_, ?_⟩,
    fun hg => h'.gie_kept (h.gie_kept hg)⟩
  · rw [hl', hl, List.append_assoc]
  · rw [List.length_append]
    omega

theorem Extends.mono (h : Extends m s t) (hmn : m ≤ n) : Extends n s t := by
  obtain ⟨l, hl, hlm⟩ := h.trace_append
  exact ⟨h.faults_eq, h.refused_eq, ⟨l, hl, hlm.trans hmn⟩, h.gie_kept⟩

theorem Extends.refl (s : State) : Extends n s s :=
  (Extends.silent rfl rfl rfl rfl).mono (Nat.zero_le n)

theorem extends_emit (s : State) (e : Event) : Extends 1 s (s.emit e) :=
  ⟨rfl, rfl, ⟨[e], rfl, Nat.le_refl 1⟩, id⟩

/-- An event, and then writes to other fields. -/
theorem Extends.of_emit (e : Event) (h : Extends 0 (s.emit e) t) : Extends 1 s t :=
  (extends_emit s e).trans h

/-! ## The shared pieces of the handlers and operations -/

theorem extends_requestStop (s : State) (r : StopReason) : Extends 1 s (s.requestStop r) :=
  extends_emit s _

theorem extends_sendAck (s : State) : Extends 1 s (sendAck s) :=
  .of_emit (.tx Config.codeAck) (.silent rfl rfl rfl rfl)

theorem extends_sendBuffered (s : State) : Extends 1 s (sendBuffered s) := by
  rcases sendBuffered_cases s with ⟨_, h⟩ | ⟨_, h⟩ <;> rw [h]
  · exact .refl s
  · exact .of_emit (.tx _) (.silent rfl rfl rfl rfl)

theorem extends_disarm (s : State) : Extends 0 s (disarm s) := by
  unfold disarm
  split
  · exact .silent rfl rfl rfl rfl
  · exact .refl s

/-- R218: an activation of TXI sends at most one byte. -/
theorem extends_txiBody (s : State) : Extends 1 s (txiBody s) := by
  refine Extends.trans (n := 0) ?_ (extends_disarm _)
  split
  · exact extends_sendAck s
  · exact extends_sendBuffered s

theorem extends_sendStep (slot : SlotId) (b : Byte) (rest : List Byte) (s : State) :
    Extends 0 s (sendStep slot b rest s) := by
  unfold sendStep
  split
  · exact .silent rfl rfl rfl rfl
  · exact .refl s

theorem extends_startSending (slot : SlotId) (b : Byte) (rest : List Byte) (s : State) :
    Extends 0 s (startSending slot b rest s) := by
  have wait : Extends 0 s (s.setSlot slot (b :: rest)) := .silent rfl rfl rfl rfl
  rcases startSending_cases slot b rest s with ⟨_, h⟩ | ⟨_, h⟩ <;> rw [h]
  · exact wait
  · exact wait.trans (extends_sendStep slot b rest _)

theorem extends_chunkAccount (h : chunkAccount s = .ok t) : Extends 0 s t := by
  rcases chunkAccount_cases s with ⟨_, _, hc⟩ | ⟨_, _, hc⟩ | ⟨_, hc⟩ <;> rw [hc] at h <;> cases h
  · exact .silent rfl rfl rfl rfl
  · exact .silent rfl rfl rfl rfl

/-- R206: the byte taken is the only event. -/
theorem extends_rxTake (h : rxTake s = .ok t) : Extends 1 s t := by
  rcases rxTake_ok h with ⟨_, rfl⟩ | ⟨_, u, hu, rfl⟩
  · exact .refl _
  · have pop : Extends 0 s { s with rx := { s.rx with tail := ringNext Config.rxCap s.rx.tail } } :=
      .silent rfl rfl rfl rfl
    exact (pop.trans (extends_chunkAccount hu)).trans (extends_emit u _)

theorem extends_finishWait (h : finishWait s = .ok t) : Extends 1 s t := by
  unfold finishWait at h
  cases ht : rxTake s with
  | error f => rw [ht] at h; cases h
  | ok u =>
    rw [ht] at h
    cases h
    have free : Extends 0 u { u with main := { u.main with mode := .idle } } := .silent rfl rfl rfl rfl
    exact (extends_rxTake ht).trans free

theorem extends_beginWait (s : State) : Extends 1 s (beginWait s) :=
  .of_emit (.call .underrun) (.silent rfl rfl rfl rfl)

theorem extends_idleIteration (s : State) : Extends 1 s (idleIteration s) :=
  .of_emit (.call .idle) (.silent rfl rfl rfl rfl)

theorem extends_rxDeliver (l : Byte) (s : State) : Extends 1 s (rxDeliver l s) := by
  rcases rxDeliver_cases l s with ⟨_, h⟩ | ⟨_, h⟩ <;> rw [h]
  · exact extends_requestStop s _
  · exact .mono (.silent rfl rfl rfl rfl) (Nat.zero_le 1)

theorem extends_rxDispatch (l : Byte) (s : State) : Extends 1 s (rxDispatch l s) := by
  rcases rxDispatch_cases l s with ⟨k, h⟩ | h | ⟨_, h⟩ <;> rw [h]
  · exact extends_emit s _
  · exact extends_requestStop s _
  · exact extends_rxDeliver l s

theorem extends_rxByte (b : Byte) (s : State) : Extends 1 s (rxByte b s) := by
  have seen : Extends 0 s (rxExpectFirst s) := .silent rfl rfl rfl rfl
  unfold rxByte
  split_ifs
  · exact .mono (.silent rfl rfl rfl rfl) (Nat.zero_le 1)
  · exact .mono (.silent rfl rfl rfl rfl) (Nat.zero_le 1)
  · exact seen.trans (extends_rxDispatch b _)
  · exact seen.trans (extends_requestStop _ _)

theorem extends_rxOverrunCheck (ovr : Bool) (s : State) : Extends 1 s (rxOverrunCheck ovr s) := by
  cases ovr
  · exact .refl s
  · exact extends_requestStop s _

/-- R171, R181: the overrun stop, and one event of the classifier. -/
theorem extends_rxiBody (s : State) : Extends 2 s (rxiBody s) := by
  have entry : Extends 0 s (rxEntry s) := .silent rfl rfl rfl rfl
  exact (entry.trans (extends_rxOverrunCheck s.uart.rxOvr _)).trans (extends_rxByte s.uart.rxData _)

theorem extends_tmiBody (s : State) : Extends 1 s (tmiBody s) :=
  .of_emit (.laser _) (.silent rfl rfl rfl rfl)

theorem extends_pushCommand (r : RingId) (b : Byte) (s : State) : Extends 0 s (pushCommand r b s) := by
  unfold pushCommand
  split
  · split <;> exact .silent rfl rfl rfl rfl
  · split <;> exact .silent rfl rfl rfl rfl

theorem extends_popCommand (r : RingId) (s : State) : Extends 0 s (popCommand r s) := by
  unfold popCommand
  split
  · split <;> exact .silent rfl rfl rfl rfl
  · split <;> exact .silent rfl rfl rfl rfl

/-! ## Outcomes of a transition -/

/-- What a transition that answers `t` from `s` has done: its own writes with at most two events, or the record of one
fault, or of one refusal, and then nothing else (R28, R301, R302). -/
inductive StepEffect (s t : State) : Prop where
  | completed (h : Extends 2 s t)
  | faulted (r : FaultReason) (h : t = { s with faults := [r] })
  | refused (r : RefuseReason) (h : t = s.recordRefusal r)

/-- If the outcome `k` of a transition from `s` is a next state, it is one of the three effects. -/
def Sound (s : State) (k : Result) : Prop := ∀ t, k = .next t → StepEffect s t

theorem sound_next (h : Extends n s t) (hn : n ≤ 2 := by decide) : Sound s (.next t) := by
  rintro _ ⟨⟩
  exact .completed (h.mono hn)

theorem sound_refused (s : State) (r : Refusal) : Sound s (.refused r) := by
  rintro _ ⟨⟩

theorem sound_refuse (r : RefuseReason) (s : State) : Sound s (refuse r s) := by
  rintro _ ⟨⟩
  exact .refused r rfl

/-- A live state has no fault recorded, so the set of faults after a `raise` is the new one alone. -/
theorem recordFault_of_live (hl : s.live) (r : FaultReason) : s.recordFault r = { s with faults := [r] } := by
  simp [State.recordFault, hl.1]

theorem sound_raise (hl : s.live) (r : FaultReason) : Sound s (raise r s) := by
  rintro _ ⟨⟩
  exact .faulted r (recordFault_of_live hl r)

theorem sound_settle {r : Except FaultReason State} (hl : s.live) (h : ∀ t, r = .ok t → Extends 2 s t) :
    Sound s (settle s r) := by
  intro t ht
  rcases settle_next.mp ht with hr | ⟨f, _, rfl⟩
  · exact .completed (h t hr)
  · exact .faulted f (recordFault_of_live hl f)

theorem sound_guardLive {k : Result} (h : s.live → Sound s k) : Sound s (guardLive s k) := by
  intro t ht
  obtain ⟨hl, hk⟩ := guardLive_next.mp ht
  exact h hl t hk

theorem sound_enterHandler (e : Bool) {body : State → State} (h : Extends n s (body s)) (hn : n ≤ 2 := by decide) :
    Sound s (enterHandler e body s) := by
  intro t ht
  obtain ⟨_, _, rfl⟩ := enterHandler_next.mp ht
  exact .completed (h.mono hn)

theorem sound_admitEvent (e : Bool) {k : Result} (h : s.live → Sound s k) : Sound s (admitEvent e k s) := by
  intro t ht
  obtain ⟨hl, _, hk⟩ := admitEvent_next.mp ht
  exact h hl t hk

theorem sound_unitStep {body : State → State} (h : Extends n s (body s)) (hn : n ≤ 2 := by decide) :
    Sound s (unitStep body s) := by
  intro t ht
  obtain ⟨_, rfl⟩ := unitStep_next.mp ht
  exact .completed (h.mono hn)

theorem sound_admitOp {k : SlotId → Result} (h : s.live → ∀ slot, Sound s (k slot)) : Sound s (admitOp s k) := by
  intro t ht
  obtain ⟨hl, ⟨slot, _, hk⟩ | ⟨_, rfl⟩⟩ := admitOp_next.mp ht
  · exact h hl slot t hk
  · exact .refused _ rfl

theorem sound_admitTop {k : Result} (h : s.live → Sound s k) : Sound s (admitTop s k) := by
  intro t ht
  obtain ⟨hl, ⟨_, hk⟩ | ⟨_, rfl⟩⟩ := admitTop_next.mp ht
  · exact h hl t hk
  · exact .refused _ rfl

theorem sound_admitIdleReturn {k : Result} (h : Sound s k) : Sound s (admitIdleReturn s k) := by
  intro t ht
  obtain ⟨_, ⟨_, hk⟩ | ⟨_, rfl⟩⟩ := admitIdleReturn_next.mp ht
  · exact h t hk
  · exact .refused _ rfl

/-- An operation that neither raises nor refuses once it is admitted. -/
theorem sound_admitOp_next {f : SlotId → State} (h : ∀ slot, Extends n s (f slot)) (hn : n ≤ 2 := by decide) :
    Sound s (admitOp s fun slot => .next (f slot)) :=
  sound_admitOp fun _ slot => sound_next (h slot) hn

/-- R193: sending a byte. -/
theorem sound_sendOp (b : Byte) (s : State) : Sound s (sendOp b s) :=
  sound_admitOp_next fun slot => extends_startSending slot b [] s

/-- An operation whose only effect is its result (R192). -/
theorem sound_admitOp_ret (v : RetVal) (s : State) : Sound s (admitOp s fun _ => .next (s.ret v)) :=
  sound_admitOp_next fun _ => extends_emit s _

/-- R152 to R154: a ring command that only answers. -/
theorem sound_ringAnswer (f : State → RingResult) (s : State) : Sound s (unitStep (fun t => t.ringResult (f t)) s) :=
  sound_unitStep (.silent rfl rfl rfl rfl)

theorem sound_execRbIsEmpty (r : RingId) (s : State) : Sound s (execRbIsEmpty r s) := sound_ringAnswer _ s
theorem sound_execRbIsFull (r : RingId) (s : State) : Sound s (execRbIsFull r s) := sound_ringAnswer _ s
theorem sound_execRbLen (r : RingId) (s : State) : Sound s (execRbLen r s) := sound_ringAnswer _ s

/-! ## The instructions that have branches of their own -/

theorem sound_execSendParam (tag : Byte) (value : F64) (s : State) : Sound s (execSendParam tag value s) := by
  refine sound_admitOp fun hl slot => ?_
  split_ifs
  · exact sound_refuse _ s
  · exact sound_next (extends_startSending slot _ _ s)
  · exact sound_raise hl _

theorem sound_execReadByte (s : State) : Sound s (execReadByte s) := by
  refine sound_admitTop fun hl => ?_
  split_ifs
  · exact sound_next (extends_beginWait s)
  · exact sound_settle hl fun t ht => (extends_rxTake ht).mono (by decide)

theorem sound_execStartRaster (addr len : Addr) (s : State) : Sound s (execStartRaster addr len s) := by
  refine sound_admitOp fun _ _ => ?_
  split_ifs
  · exact sound_refuse _ s
  · exact sound_next (.silent rfl rfl rfl rfl)

theorem sound_execReadLimit (i : Byte) (s : State) : Sound s (execReadLimit i s) := by
  refine sound_admitOp fun _ _ => ?_
  split
  · exact sound_next (extends_emit s _)
  · exact sound_refuse _ s

/-- R341: INIT_DONE is the one write to `gie`, and it enables interrupts. -/
theorem sound_execInitDone (s : State) : Sound s (execInitDone s) :=
  sound_admitOp_next (n := 0) fun _ => ⟨rfl, rfl, ⟨[], by simp, Nat.le_refl 0⟩, fun _ => rfl⟩

theorem sound_execRxArrive (b : Byte) (s : State) : Sound s (execRxArrive b s) := by
  refine sound_admitEvent _ fun _ => sound_next (n := 0) ?_
  split_ifs
  · exact .silent rfl rfl rfl rfl
  · exact .silent rfl rfl rfl rfl

theorem sound_execTick (s : State) : Sound s (execTick s) := by
  refine sound_admitEvent _ fun hl => ?_
  split_ifs
  · exact sound_raise hl _
  · exact sound_next (.silent rfl rfl rfl rfl)

theorem sound_execMemWrite (addr : Addr) (v : Byte) (s : State) : Sound s (execMemWrite addr v s) := by
  refine sound_admitEvent _ fun hl => ?_
  split_ifs
  · exact sound_raise hl _
  · exact sound_next (.silent rfl rfl rfl rfl)

theorem sound_execRxInvalidMarker (l : Byte) (s : State) : Sound s (execRxInvalidMarker l s) := by
  refine sound_guardLive fun _ => ?_
  split_ifs
  · exact sound_next (extends_requestStop s _)
  · exact sound_refused s _

theorem sound_execRxPayload (l : Byte) (s : State) : Sound s (execRxPayload l s) := by
  refine sound_guardLive fun _ => ?_
  split_ifs
  · exact sound_next (extends_rxDeliver l s)
  · exact sound_refused s _

theorem sound_execTxAck (s : State) : Sound s (execTxAck s) := by
  refine sound_guardLive fun _ => ?_
  split_ifs
  · exact sound_refused s _
  · exact sound_next (extends_sendAck s)

/-! ## Every transition -/

/-- Every instruction that answers a next state completes with at most two events, or records one fault or one refusal
and nothing else. -/
theorem exec_sound (i : Instr) (s : State) : Sound s (exec i s) := by
  cases i with
  | sendByte b => exact sound_sendOp b s
  | sendParam tag value => exact sound_execSendParam tag value s
  | readByte => exact sound_execReadByte s
  | bytesAvailable => exact sound_admitOp_ret _ s
  | idleReturn => exact sound_admitIdleReturn (sound_next (.silent rfl rfl rfl rfl))
  | setPulseDuration d => exact sound_admitOp_next fun _ => .silent rfl rfl rfl rfl
  | setPulseFrequency f => exact sound_admitOp_next fun _ => .silent rfl rfl rfl rfl
  | startRaster addr len => exact sound_execStartRaster addr len s
  | setAir v => exact sound_admitOp_next fun _ => .silent rfl rfl rfl rfl
  | setAux1 v => exact sound_admitOp_next fun _ => .silent rfl rfl rfl rfl
  | setAux2 v => exact sound_admitOp_next fun _ => .silent rfl rfl rfl rfl
  | readDoor => exact sound_admitOp_ret _ s
  | readChiller => exact sound_admitOp_ret _ s
  | readLimit k => exact sound_execReadLimit k s
  | initDone => exact sound_execInitDone s
  | rbPush r b => exact sound_unitStep (extends_pushCommand r b s)
  | rbPop r => exact sound_unitStep (extends_popCommand r s)
  | rbIsEmpty r => exact sound_execRbIsEmpty r s
  | rbIsFull r => exact sound_execRbIsFull r s
  | rbLen r => exact sound_execRbLen r s
  | evRx => exact sound_enterHandler _ (extends_rxiBody s)
  | evTxReady => exact sound_enterHandler _ (extends_txiBody s)
  | evTick => exact sound_enterHandler _ (extends_tmiBody s)
  | rxArrive b => exact sound_execRxArrive b s
  | txDone => exact sound_admitEvent _ fun _ => sound_next (.silent rfl rfl rfl rfl)
  | tick => exact sound_execTick s
  | inputSet line v => exact sound_admitEvent _ fun _ => sound_next (.silent rfl rfl rfl rfl)
  | memWrite addr v => exact sound_execMemWrite addr v s
  | rxReset => exact sound_unitStep (.silent rfl rfl rfl rfl)
  | rxStop => exact sound_unitStep (extends_emit s _)
  | rxResume => exact sound_unitStep (extends_emit s _)
  | rxStatus => exact sound_unitStep (extends_emit s _)
  | rxSuperstatus => exact sound_unitStep (extends_emit s _)
  | rxInvalidMarker l => exact sound_execRxInvalidMarker l s
  | rxPayload l => exact sound_execRxPayload l s
  | txAck => exact sound_execTxAck s
  | txStatusEnd => exact sound_sendOp _ s
  | txParamValue g => exact sound_sendOp _ s
  | txParamTag tag => exact sound_sendOp _ s
  | txRaw b => exact sound_sendOp b s

/-- The same of MAIN's continuation step (R194, R210, R211). -/
theorem mainStep_sound (s : State) : Sound s (mainStep s) := by
  intro t ht
  obtain ⟨hl, ⟨b, rest, _, _, rfl⟩ | ⟨b, rest, _, _, _, _, rfl⟩ | ⟨_, _, _, rfl⟩ | ⟨_, _, _, hw⟩⟩ := mainStep_next ht
  · exact .completed ((extends_sendStep .top b rest s).mono (by decide))
  · exact .completed ((extends_sendStep .nested b rest s).mono (by decide))
  · exact .completed ((extends_idleIteration s).mono (by decide))
  · exact sound_settle hl (fun u hu => (extends_finishWait hu).mono (by decide)) t hw

theorem rejectUnit_sound (e : DecodeError) (s : State) : Sound s (rejectUnit e s) :=
  sound_guardLive fun _ => sound_refuse _ s

/-! ## Reading the statements off an effect -/

theorem StepEffect.fault_applies_nothing (h : StepEffect s t) (hne : t.faults ≠ s.faults) :
    ∃ r, t = { s with faults := [r] } := by
  cases h with
  | completed hx => exact absurd hx.faults_eq hne
  | faulted r ht => exact ⟨r, ht⟩
  | refused r ht => exact absurd (congrArg State.faults ht) hne

theorem StepEffect.refusal_applies_nothing (h : StepEffect s t) (hne : t.refused ≠ s.refused) :
    ∃ r, t = { s with refused := true, refuseReason := some r } := by
  cases h with
  | completed hx => exact absurd hx.refused_eq hne
  | faulted r ht => exact absurd (congrArg State.refused ht) hne
  | refused r ht => exact ⟨r, ht⟩

theorem StepEffect.trace_append (h : StepEffect s t) : ∃ l : List Event, t.trace = s.trace ++ l ∧ l.length ≤ 2 := by
  cases h with
  | completed hx => exact hx.trace_append
  | faulted r ht => exact ⟨[], by simp [ht], by decide⟩
  | refused r ht => exact ⟨[], by simp [ht], by decide⟩

theorem StepEffect.gie_kept (h : StepEffect s t) (hg : s.gie = true) : t.gie = true := by
  cases h with
  | completed hx => exact hx.gie_kept hg
  | faulted r ht => exact ht ▸ hg
  | refused r ht => exact ht ▸ hg

/-- R280: a step takes the first line off the script and is then one of the transitions above. -/
theorem step_effect (h : step s = .next t) : ∃ rest, StepEffect (s.withScript rest) t := by
  obtain ⟨rest, _, ht⟩ | ⟨_, _, rest, i, _, _, _, _, ht⟩ | ⟨_, _, rest, e, _, _, ht⟩ := step_next h
  · exact ⟨rest, mainStep_sound _ t ht⟩
  · exact ⟨rest, exec_sound i _ t ht⟩
  · exact ⟨rest, rejectUnit_sound e _ t ht⟩

/-- Settles O56: every instruction and every step of MAIN has one of the three effects of `StepEffect`. -/
theorem stopsApplyNoOtherWrite : Obligations.StopsApplyNoOtherWrite := by
  intro i s t h
  have effect : StepEffect s t := h.elim (exec_sound i s t) (mainStep_sound s t)
  exact ⟨effect.fault_applies_nothing, effect.refusal_applies_nothing⟩

/-- Settles O60: taking a line off the script changes neither the trace nor `gie`, and the transition it names has one of
the three effects of `StepEffect`. -/
theorem stepsExtendTrace : Obligations.StepsExtendTrace := by
  intro s t h
  obtain ⟨rest, effect⟩ := step_effect h
  exact ⟨effect.trace_append, effect.gie_kept⟩

end Sys2Proof.Proofs
end

section
/-! PROOFS. The families of 10_state.md: every transition is one of the writes of `Writes` (R62), from which the
write rights (O58, O59), the arming law (O11) and, with the rows that are steps inside a transition, the well-formedness
of the state (O8, O9, O10) are read off. -/

namespace Sys2Proof.Proofs

open Sys2Proof Sys2Proof.Machine

variable {a : Agent} {s t u : State}

/-! ## What each shared operation writes -/

theorem push_eq_some {C : Nat} {r q : RingBuf C} {b : Byte} (h : r.push b = some q) :
    q = { r.slotPut r.head b with head := ringNext C r.head } := by
  rcases r.push_cases b with ⟨_, hp⟩ | ⟨_, hp⟩ <;> simp_all

theorem pop_eq_some {C : Nat} {r q : RingBuf C} {b : Byte} (h : r.pop = some (b, q)) :
    q = { r with tail := ringNext C r.tail } := by
  rcases r.pop_cases with ⟨_, hp⟩ | ⟨_, hp⟩ <;> simp_all

theorem push_valid {C : Nat} {r q : RingBuf C} {b : Byte} (hC : C ≤ 256) (h : r.push b = some q) (hr : r.valid) :
    q.valid := by
  rw [push_eq_some h]
  exact ⟨ringNext_lt (by omega) hC _, hr.2⟩

theorem advanceTail_valid {C : Nat} {r : RingBuf C} (hC : C ≤ 256) (hr : r.valid) :
    ({ r with tail := ringNext C r.tail } : RingBuf C).valid :=
  ⟨hr.1, ringNext_lt (by omega) hC _⟩

theorem pop_valid {C : Nat} {r q : RingBuf C} {b : Byte} (hC : C ≤ 256) (h : r.pop = some (b, q)) (hr : r.valid) :
    q.valid := by
  rw [pop_eq_some h]
  exact advanceTail_valid hC hr

/-- R181: the classifier writes the duplicate detector, and possibly `consumed` (R172) or the RX ring (R180). -/
theorem rxByte_writes (b : Byte) (s : State) : ∃ trace dup rx consumed,
    rxByte b s = { s with trace := trace, dup := dup, rx := rx, fc := { s.fc with consumed := consumed } } ∧
    (rx = s.rx ∨ s.rx.push b = some rx) ∧ (consumed = s.fc.consumed ∨ consumed = 0) := by
  unfold rxByte
  split_ifs
  · exact ⟨_, _, _, 0, rfl, .inl rfl, .inr rfl⟩
  · exact ⟨_, _, _, _, rfl, .inl rfl, .inl rfl⟩
  · rcases rxDispatch_cases b (rxExpectFirst s) with ⟨k, h⟩ | h | ⟨_, h⟩ <;> rw [h]
    · exact ⟨_, _, _, _, rfl, .inl rfl, .inl rfl⟩
    · exact ⟨_, _, _, _, rfl, .inl rfl, .inl rfl⟩
    · rcases rxDeliver_cases b (rxExpectFirst s) with ⟨_, h⟩ | ⟨hfull, h⟩ <;> rw [h]
      · exact ⟨_, _, _, _, rfl, .inl rfl, .inl rfl⟩
      · exact ⟨_, _, _, _, rfl, .inr (RingBuf.push_of_not_isFull b hfull), .inl rfl⟩
  · exact ⟨_, _, _, _, rfl, .inl rfl, .inl rfl⟩

/-- R170, R181: a receive activation frees the data register and then writes what the classifier writes. -/
theorem rxiBody_writes (s : State) : ∃ trace dup rx consumed,
    rxiBody s = { s with
      uart := { s.uart with rxFull := false, rxOvr := false }
      trace := trace, dup := dup, rx := rx, fc := { s.fc with consumed := consumed } } ∧
    (rx = s.rx ∨ ∃ b, s.rx.push b = some rx) ∧ (consumed = s.fc.consumed ∨ consumed = 0) := by
  obtain ⟨trace, dup, rx, consumed, h, hrx, hconsumed⟩ :=
    rxByte_writes s.uart.rxData (rxOverrunCheck s.uart.rxOvr (rxEntry s))
  unfold rxiBody
  cases hovr : s.uart.rxOvr <;> rw [hovr] at h hrx hconsumed <;>
    exact ⟨trace, dup, rx, consumed, h, hrx.imp id fun hp => ⟨_, hp⟩, hconsumed⟩

/-- R216: after the disarm test the source is armed only if there is something to send. -/
theorem disarm_eq (s : State) : disarm s = { s with txie := s.txie && !(s.tx.isEmpty && s.fc.pendingAcks == 0) } := by
  unfold disarm
  generalize (s.tx.isEmpty && s.fc.pendingAcks == 0) = done
  cases done <;> simp

/-- R218: a transmit activation writes the TX tail, the pending acknowledgments, the arming and the UART. -/
theorem txiBody_writes (s : State) : ∃ trace tail pendingAcks txie txFree,
    txiBody s = { s with
      trace := trace, tx := { s.tx with tail := tail }, fc := { s.fc with pendingAcks := pendingAcks }
      txie := txie, uart := { s.uart with txFree := txFree } } ∧
    (tail = s.tx.tail ∨ tail = ringNext Config.txCap s.tx.tail) := by
  rw [txiBody, disarm_eq]
  split
  · exact ⟨_, _, _, _, _, rfl, .inl rfl⟩
  · rcases sendBuffered_cases s with ⟨_, h⟩ | ⟨_, h⟩ <;> rw [h]
    · exact ⟨_, _, _, _, _, rfl, .inl rfl⟩
    · exact ⟨_, _, _, _, _, rfl, .inr rfl⟩

theorem pulseCountDown_writes (p : PulseEngine) : ∃ remaining, p.countDown = { p with remaining := remaining } := by
  unfold PulseEngine.countDown
  split
  · exact ⟨_, rfl⟩
  · exact ⟨_, rfl⟩

theorem pulseLoad_writes (p : PulseEngine) (m : Memory) : ∃ remaining cursor,
    p.load m = { p with remaining := remaining, cursor := cursor } ∧
    (cursor = p.cursor ∨ (p.cursor ≠ p.sentinel ∧ cursor = p.cursor + 1)) := by
  unfold PulseEngine.load
  split
  next hraster => exact ⟨_, _, rfl, .inr ⟨by simpa [PulseEngine.rasterActive] using hraster, rfl⟩⟩
  next => exact ⟨_, _, rfl, .inl rfl⟩

theorem pulseAdvance_writes (p : PulseEngine) (m : Memory) : ∃ timer remaining cursor,
    p.advance m = { p with timer := timer, remaining := remaining, cursor := cursor } ∧
    (cursor = p.cursor ∨ (p.cursor ≠ p.sentinel ∧ cursor = p.cursor + 1)) := by
  unfold PulseEngine.advance
  split
  · obtain ⟨remaining, cursor, h, hcursor⟩ := pulseLoad_writes { p with timer := p.sum.setWidth 16 } m
    exact ⟨_, remaining, cursor, h, hcursor⟩
  · exact ⟨_, _, _, rfl, .inl rfl⟩

/-- R233: a tick moves the cursor by at most one, and only while the raster is active. -/
theorem pulseTick_writes (p : PulseEngine) (m : Memory) : ∃ timer remaining cursor,
    (p.tick m).1 = { p with timer := timer, remaining := remaining, cursor := cursor } ∧
    (cursor = p.cursor ∨ (p.cursor ≠ p.sentinel ∧ cursor = p.cursor + 1)) := by
  obtain ⟨timer, _, cursor, hadvance, hcursor⟩ := pulseAdvance_writes p m
  obtain ⟨remaining, hcount⟩ := pulseCountDown_writes (p.advance m)
  refine ⟨timer, remaining, cursor, ?_, hcursor⟩
  rw [PulseEngine.tick, hcount, hadvance]

/-- R206, R207: a take that completes advances the RX tail and counts the byte, or queues an acknowledgment and arms. -/
theorem rxTake_writes (h : rxTake s = .ok t) :
    t = s ∨ ∃ fc txie trace,
      t = { s with
        rx := { s.rx with tail := ringNext Config.rxCap s.rx.tail }, fc := fc, txie := txie, trace := trace } ∧
      ((s.fc.pendingAcks.toNat ≠ Config.pendingAcksMax ∧
          fc = { consumed := 0, pendingAcks := s.fc.pendingAcks + 1 } ∧ txie = true) ∨
       (s.fc.consumed.toNat + 1 ≠ Config.chunkSize ∧
          fc = { s.fc with consumed := s.fc.consumed + 1 } ∧ txie = s.txie)) := by
  rcases rxTake_ok h with ⟨_, rfl⟩ | ⟨_, u, hu, rfl⟩
  · exact .inl rfl
  · right
    rcases chunkAccount_cases { s with rx := { s.rx with tail := ringNext Config.rxCap s.rx.tail } } with
      ⟨_, _, hc⟩ | ⟨_, hacks, hc⟩ | ⟨hchunk, hc⟩ <;> rw [hc] at hu <;> cases hu
    · exact ⟨_, _, _, rfl, .inl ⟨hacks, rfl, rfl⟩⟩
    · exact ⟨_, _, _, rfl, .inr ⟨hchunk, rfl, rfl⟩⟩

theorem finishWait_ok (h : finishWait s = .ok t) :
    ∃ u, rxTake s = .ok u ∧ t = { u with main := { u.main with mode := .idle } } := by
  unfold finishWait at h
  cases hu : rxTake s with
  | error f => rw [hu] at h; cases h
  | ok u => rw [hu] at h; cases h; exact ⟨u, rfl, rfl⟩

theorem sendStep_setSlot {slot : SlotId} {b : Byte} {q rest : List Byte} (h : s.tx.isFull = false) :
    sendStep slot b rest (s.setSlot slot q) = sendStep slot b rest s := by
  rw [sendStep_of_not_full (s := s.setSlot slot q) h, sendStep_of_not_full h]
  cases slot <;> rfl

/-! ## The writes of the agents -/

/-- R190: the slot that the mainline sends from: the nested one inside a callback, the top one while no read waits. -/
def SlotOpen (m : MainState) : SlotId → Prop
  | .top => m.mode ≠ .reading
  | .nested => m.inIdle = true

theorem slotOpen_of_admissionSlot {slot : SlotId} (h : admissionSlot s = some slot) : SlotOpen s.main slot := by
  cases slot with
  | top => simp [SlotOpen, admissionSlot_top.mp h]
  | nested => exact (admissionSlot_nested.mp h).2.1

/-- R62, R280: what a transition of an agent (of MAIN also a continuation step) that answers a next state writes.
R301, R302: any agent may record a stop instead. -/
inductive Writes (s : State) : Agent → State → Prop
  | fault (a : Agent) (r : FaultReason) : Writes s a (s.recordFault r)
  | refusal (a : Agent) (r : RefuseReason) : Writes s a (s.recordRefusal r)
  /-- R192: a result. -/
  | answer (v : RetVal) : Writes s .main (s.ret v)
  /-- R193: a send waits with its bytes in its slot. -/
  | wait {slot : SlotId} (hslot : SlotOpen s.main slot) (q : List Byte) : Writes s .main (s.setSlot slot q)
  /-- R195: one byte of a send is enqueued. -/
  | enqueue {slot : SlotId} (hslot : SlotOpen s.main slot) (b : Byte) (rest : List Byte) (hroom : s.tx.isFull = false) :
    Writes s .main (sendStep slot b rest s)
  /-- R205 -/
  | beginRead (hidle : s.main.mode = .idle) : Writes s .main (beginWait s)
  /-- R211 -/
  | idleIteration (hread : s.main.mode = .reading) : Writes s .main (idleIteration s)
  /-- R206, R209: a read that need not wait. -/
  | take {t : State} (h : rxTake s = .ok t) : Writes s .main t
  /-- R210 -/
  | endRead {t : State} (hout : s.main.inIdle = false) (h : finishWait s = .ok t) : Writes s .main t
  /-- R220 -/
  | idleReturn (hfree : s.main.nested = .idle) : Writes s .main { s with main := { s.main with inIdle := false } }
  /-- R230 to R232: MAIN sets up the pulse engine; it leaves the running pulse alone and the cursor within the buffer. -/
  | pulse (p : PulseEngine) (hremaining : p.remaining = s.pe.remaining)
    (hcursor : s.pe.cursor.toNat ≤ s.pe.sentinel.toNat → p.cursor.toNat ≤ p.sentinel.toNat) :
    Writes s .main { s with pe := p }
  /-- R260 to R262 -/
  | outputs (o : OutputLines) : Writes s .main { s with outp := o }
  /-- R341 -/
  | initDone : Writes s .main { s with gie := true }
  /-- R181 -/
  | receive : Writes s .rxi (rxiBody s)
  /-- R218, R283 -/
  | transmit (harmed : s.txie = true) : Writes s .txi (txiBody s)
  /-- R233 -/
  | tick : Writes s .tmi (tmiBody s)
  /-- R285, R286: the UART, where an overrun stands only beside a waiting byte. -/
  | link (l : Uart) (hovr : (s.uart.rxOvr = true → s.uart.rxFull = true) → l.rxOvr = true → l.rxFull = true) :
    Writes s .env { s with uart := l }
  /-- R287 -/
  | timer : Writes s .env { s with tickPending := true }
  /-- R297 -/
  | inputs (l : InputLines) : Writes s .env { s with inp := l }
  /-- R298 -/
  | memory (addr : Addr) (v : Byte) : Writes s .env { s with mem := memWrite s.mem addr v }

/-- R193: an issued send either enqueues its first byte or waits. -/
theorem writes_startSending {slot : SlotId} (hslot : SlotOpen s.main slot) (b : Byte) (rest : List Byte) :
    Writes s .main (startSending slot b rest s) := by
  rcases startSending_cases slot b rest s with ⟨_, h⟩ | ⟨hroom, h⟩ <;> rw [h]
  · exact .wait hslot _
  · rw [sendStep_setSlot hroom]
    exact .enqueue hslot b rest hroom

/-! ## Outcomes -/

/-- If the outcome is a next state, it satisfies `P`. -/
def Ensures (k : Result) (P : State → Prop) : Prop := ∀ t, k = .next t → P t

section Outcomes

variable {P : State → Prop} {k : Result}

theorem ensures_next (h : P t) : Ensures (.next t) P := by
  rintro _ ⟨⟩
  exact h

theorem ensures_refused (r : Refusal) : Ensures (.refused r) P := by
  rintro _ ⟨⟩

theorem ensures_guardLive (h : Ensures k P) : Ensures (guardLive s k) P :=
  fun t ht => h t (guardLive_next.mp ht).2

theorem ensures_unitStep {body : State → State} (h : P (body s)) : Ensures (unitStep body s) P :=
  ensures_guardLive (ensures_next h)

theorem ensures_enterHandler {e : Bool} {body : State → State} (h : e = true → P (body s)) :
    Ensures (enterHandler e body s) P := by
  intro t ht
  obtain ⟨_, he, rfl⟩ := enterHandler_next.mp ht
  exact h he

theorem ensures_admitEvent {e : Bool} (h : Ensures k P) : Ensures (admitEvent e k s) P :=
  fun t ht => h t (admitEvent_next.mp ht).2.2

theorem writes_raise (r : FaultReason) : Ensures (raise r s) (Writes s a) :=
  ensures_next (.fault a r)

theorem writes_refuse (r : RefuseReason) : Ensures (refuse r s) (Writes s a) :=
  ensures_next (.refusal a r)

theorem writes_settle {r : Except FaultReason State} (h : ∀ t, r = .ok t → Writes s a t) :
    Ensures (settle s r) (Writes s a) := by
  intro t ht
  rcases settle_next.mp ht with hr | ⟨f, _, rfl⟩
  · exact h t hr
  · exact .fault a f

theorem writes_admitOp {k : SlotId → Result}
    (h : ∀ slot, SlotOpen s.main slot → Ensures (k slot) (Writes s .main)) :
    Ensures (admitOp s k) (Writes s .main) := by
  intro t ht
  obtain ⟨_, ⟨slot, hslot, hk⟩ | ⟨_, rfl⟩⟩ := admitOp_next.mp ht
  · exact h slot (slotOpen_of_admissionSlot hslot) t hk
  · exact .refusal _ _

/-- An operation that completes whenever it is admitted. -/
theorem writes_admitOp_next {f : SlotId → State} (h : ∀ slot, SlotOpen s.main slot → Writes s .main (f slot)) :
    Ensures (admitOp s fun slot => .next (f slot)) (Writes s .main) :=
  writes_admitOp fun slot hslot => ensures_next (h slot hslot)

theorem writes_admitTop (h : s.main.mode = .idle → Ensures k (Writes s .main)) :
    Ensures (admitTop s k) (Writes s .main) := by
  intro t ht
  obtain ⟨_, ⟨hslot, hk⟩ | ⟨_, rfl⟩⟩ := admitTop_next.mp ht
  · exact h (admissionSlot_top.mp hslot) t hk
  · exact .refusal _ _

theorem writes_admitIdleReturn (h : s.main.nested = .idle → Ensures k (Writes s .main)) :
    Ensures (admitIdleReturn s k) (Writes s .main) := by
  intro t ht
  obtain ⟨_, ⟨hslot, hk⟩ | ⟨_, rfl⟩⟩ := admitIdleReturn_next.mp ht
  · exact h (admissionSlot_nested.mp hslot).2.2 t hk
  · exact .refusal _ _

end Outcomes

theorem writes_sendOp (b : Byte) (s : State) : Ensures (sendOp b s) (Writes s .main) :=
  writes_admitOp_next fun _ hslot => writes_startSending hslot b []

theorem writes_execSendParam (tag : Byte) (value : F64) (s : State) :
    Ensures (execSendParam tag value s) (Writes s .main) := by
  refine writes_admitOp fun slot hslot => ?_
  split_ifs
  · exact writes_refuse _
  · exact ensures_next (writes_startSending hslot _ _)
  · exact writes_raise _

theorem writes_execReadByte (s : State) : Ensures (execReadByte s) (Writes s .main) := by
  refine writes_admitTop fun hidle => ?_
  split_ifs
  · exact ensures_next (.beginRead hidle)
  · exact writes_settle fun _ => .take

/-- R232: a buffer that fits ends at or above its start. -/
theorem writes_execStartRaster (addr len : Addr) (s : State) :
    Ensures (execStartRaster addr len s) (Writes s .main) := by
  refine writes_admitOp fun _ _ => ?_
  split_ifs with hlong
  · exact writes_refuse _
  · refine ensures_next (.pulse _ rfl fun _ => ?_)
    simp only [rasterTooLong, Config.addrW, decide_eq_true_eq] at hlong
    bv_omega

theorem writes_execReadLimit (i : Byte) (s : State) : Ensures (execReadLimit i s) (Writes s .main) := by
  refine writes_admitOp fun _ _ => ?_
  split
  · exact ensures_next (.answer _)
  · exact writes_refuse _

/-- R285: an overrun is recorded only beside a waiting byte. -/
theorem writes_execRxArrive (b : Byte) (s : State) : Ensures (execRxArrive b s) (Writes s .env) := by
  refine ensures_admitEvent (ensures_next ?_)
  split_ifs with hfull
  · exact .link _ fun _ _ => hfull
  · exact .link _ fun _ _ => rfl

theorem writes_execTick (s : State) : Ensures (execTick s) (Writes s .env) := by
  refine ensures_admitEvent ?_
  split_ifs
  · exact writes_raise _
  · exact ensures_next .timer

theorem writes_execMemWrite (addr : Addr) (v : Byte) (s : State) :
    Ensures (execMemWrite addr v s) (Writes s .env) := by
  refine ensures_admitEvent ?_
  split_ifs
  · exact writes_raise _
  · exact ensures_next (.memory addr v)

/-- R283: the transmit handler runs only while its source is armed. -/
theorem writes_execEvTxReady (s : State) : Ensures (execEvTxReady s) (Writes s .txi) := by
  refine ensures_enterHandler fun he => .transmit ?_
  simp only [State.txiEnabled, Bool.and_eq_true] at he
  exact he.1.1

/-- R62, R280: every host operation, handler activation and ENV event that answers a next state does writes of its
agent. -/
theorem exec_writes (i : Instr) (s : State) (hi : isTransition i = true) :
    Ensures (exec i s) (Writes s (agentOf i)) := by
  cases i with
  | sendByte b => exact writes_sendOp b s
  | sendParam tag value => exact writes_execSendParam tag value s
  | readByte => exact writes_execReadByte s
  | bytesAvailable => exact writes_admitOp_next fun _ _ => .answer _
  | idleReturn => exact writes_admitIdleReturn fun hfree => ensures_next (.idleReturn hfree)
  | setPulseDuration d => exact writes_admitOp_next fun _ _ => .pulse _ rfl fun _ => Nat.le_refl _
  | setPulseFrequency f => exact writes_admitOp_next fun _ _ => .pulse _ rfl id
  | startRaster addr len => exact writes_execStartRaster addr len s
  | setAir v => exact writes_admitOp_next fun _ _ => .outputs _
  | setAux1 v => exact writes_admitOp_next fun _ _ => .outputs _
  | setAux2 v => exact writes_admitOp_next fun _ _ => .outputs _
  | readDoor => exact writes_admitOp_next fun _ _ => .answer _
  | readChiller => exact writes_admitOp_next fun _ _ => .answer _
  | readLimit k => exact writes_execReadLimit k s
  | initDone => exact writes_admitOp_next fun _ _ => .initDone
  | evRx => exact ensures_enterHandler fun _ => .receive
  | evTxReady => exact writes_execEvTxReady s
  | evTick => exact ensures_enterHandler fun _ => .tick
  | rxArrive b => exact writes_execRxArrive b s
  | txDone => exact ensures_admitEvent (ensures_next (.link _ id))
  | tick => exact writes_execTick s
  | inputSet line v => exact ensures_admitEvent (ensures_next (.inputs _))
  | memWrite addr v => exact writes_execMemWrite addr v s
  | rbPush | rbPop | rbIsEmpty | rbIsFull | rbLen | rxReset | rxStop | rxResume | rxStatus | rxSuperstatus
  | rxInvalidMarker | rxPayload | txAck | txStatusEnd | txParamValue | txParamTag | txRaw => cases hi

/-- The same of MAIN's continuation step (R194, R210, R211). -/
theorem mainStep_writes (s : State) : Ensures (mainStep s) (Writes s .main) := by
  intro t ht
  obtain ⟨_, ⟨b, rest, hmode, hroom, rfl⟩ | ⟨b, rest, _, hin, _, hroom, rfl⟩ | ⟨hread, _, _, rfl⟩ | ⟨_, hout, _, hw⟩⟩ :=
    mainStep_next ht
  · exact .enqueue (slot := .top) (by simp [SlotOpen, hmode]) b rest hroom
  · exact .enqueue (slot := .nested) hin b rest hroom
  · exact .idleIteration hread
  · exact writes_settle (fun _ => .endRead hout) t hw

/-! ## Write rights -/

/-- The write column of R62 (and R69 for memory): what a transition of agent `a` from `s` to `t` leaves unchanged. Each
clause is a group of fields with the same writers; for a writer it says nothing. -/
structure WriteRights (a : Agent) (s t : State) : Prop where
  ofRxi : a ≠ .rxi → t.rx.head = s.rx.head ∧ t.rx.slot = s.rx.slot ∧ t.dup = s.dup := by simp
  ofMain : a ≠ .main → t.rx.tail = s.rx.tail ∧ t.tx.head = s.tx.head ∧ t.tx.slot = s.tx.slot ∧ t.main = s.main ∧
    t.pe.frequency = s.pe.frequency ∧ t.pe.duration = s.pe.duration ∧ t.pe.sentinel = s.pe.sentinel ∧
    t.outp = s.outp ∧ t.gie = s.gie := by simp
  ofTxi : a ≠ .txi → t.tx.tail = s.tx.tail := by simp
  ofTmi : a ≠ .tmi → t.pe.remaining = s.pe.remaining ∧ t.laserOut = s.laserOut := by simp
  ofEnv : a ≠ .env → t.inp = s.inp ∧ t.mem = s.mem := by simp
  ofMainRxi : a ≠ .main → a ≠ .rxi → t.fc.consumed = s.fc.consumed := by simp
  ofMainTxi : a ≠ .main → a ≠ .txi → t.fc.pendingAcks = s.fc.pendingAcks ∧ t.txie = s.txie := by simp
  ofMainTmi : a ≠ .main → a ≠ .tmi → t.pe.timer = s.pe.timer ∧ t.pe.cursor = s.pe.cursor := by simp
  ofEnvTmi : a ≠ .env → a ≠ .tmi → t.tickPending = s.tickPending := by simp
  ofLink : a = .main ∨ a = .tmi → t.uart = s.uart := by simp

theorem writeRights_sendStep (slot : SlotId) (b : Byte) (rest : List Byte) (hroom : s.tx.isFull = false) :
    WriteRights .main s (sendStep slot b rest s) := by
  rw [sendStep_of_not_full hroom]
  exact {}

theorem writeRights_rxTake (h : rxTake s = .ok t) : WriteRights .main s t := by
  rcases rxTake_writes h with rfl | ⟨fc, txie, trace, rfl, _⟩
  · exact {}
  · exact {}

theorem writeRights_finishWait (h : finishWait s = .ok t) : WriteRights .main s t := by
  obtain ⟨u, hu, rfl⟩ := finishWait_ok h
  rcases rxTake_writes hu with rfl | ⟨fc, txie, trace, rfl, _⟩
  · exact {}
  · exact {}

theorem writeRights_rxiBody (s : State) : WriteRights .rxi s (rxiBody s) := by
  obtain ⟨trace, dup, rx, consumed, h, hrx, _⟩ := rxiBody_writes s
  have htail : rx.tail = s.rx.tail := by
    rcases hrx with rfl | ⟨b, hpush⟩
    · rfl
    · rw [push_eq_some hpush, RingBuf.slotPut_tail]
  rw [h]
  exact { ofMain := by simp [htail] }

theorem writeRights_txiBody (s : State) : WriteRights .txi s (txiBody s) := by
  obtain ⟨trace, tail, pendingAcks, txie, txFree, h, _⟩ := txiBody_writes s
  rw [h]
  exact {}

theorem writeRights_tmiBody (s : State) : WriteRights .tmi s (tmiBody s) := by
  obtain ⟨timer, remaining, cursor, h, _⟩ := pulseTick_writes s.pe s.mem
  unfold tmiBody
  exact { ofMain := by simp [h] }

theorem Writes.rights (h : Writes s a t) : WriteRights a s t := by
  cases h with
  | fault r => exact {}
  | refusal r => exact {}
  | answer v => exact {}
  | wait _ q => exact {}
  | enqueue _ b rest hroom => exact writeRights_sendStep _ b rest hroom
  | beginRead _ => unfold beginWait; exact {}
  | idleIteration _ => unfold Machine.idleIteration; exact {}
  | take h => exact writeRights_rxTake h
  | endRead _ h => exact writeRights_finishWait h
  | idleReturn _ => exact {}
  | pulse p hremaining _ => exact { ofTmi := by simp [hremaining] }
  | outputs o => exact {}
  | initDone => exact {}
  | receive => exact writeRights_rxiBody s
  | transmit _ => exact writeRights_txiBody s
  | tick => exact writeRights_tmiBody s
  | link l _ => exact {}
  | timer => exact {}
  | inputs l => exact {}
  | memory addr v => exact {}

/-- Settles O58: the transition does writes of its agent, and these keep to the agent's rights. -/
theorem writeRightsOfAgents : Obligations.WriteRightsOfAgents := by
  intro i s t hi ht
  have rights := (exec_writes i s hi t ht).rights
  exact ⟨rights.ofRxi, rights.ofMain, rights.ofTxi, rights.ofTmi, rights.ofEnv, rights.ofMainRxi, rights.ofMainTxi,
    rights.ofMainTmi, rights.ofEnvTmi, rights.ofLink⟩

/-- R194, R210, R211: of the fields that MAIN may write, a continuation step leaves the settings alone. -/
theorem mainStep_keeps_settings (h : mainStep s = .next t) : t.pe = s.pe ∧ t.outp = s.outp ∧ t.gie = s.gie := by
  obtain ⟨_, ⟨b, rest, _, hroom, rfl⟩ | ⟨b, rest, _, _, _, hroom, rfl⟩ | ⟨_, _, _, rfl⟩ | ⟨_, _, _, hw⟩⟩ :=
    mainStep_next h
  · rw [sendStep_of_not_full hroom]
    exact ⟨rfl, rfl, rfl⟩
  · rw [sendStep_of_not_full hroom]
    exact ⟨rfl, rfl, rfl⟩
  · exact ⟨rfl, rfl, rfl⟩
  · rcases settle_next.mp hw with hok | ⟨f, _, rfl⟩
    · obtain ⟨u, hu, rfl⟩ := finishWait_ok hok
      rcases rxTake_writes hu with rfl | ⟨fc, txie, trace, rfl, _⟩
      · exact ⟨rfl, rfl, rfl⟩
      · exact ⟨rfl, rfl, rfl⟩
    · exact ⟨rfl, rfl, rfl⟩

/-- Settles O59: MAIN's rights, and the settings that only an operation writes. -/
theorem writeRightsOfMainStep : Obligations.WriteRightsOfMainStep := by
  intro s t ht
  have rights := (mainStep_writes s t ht).rights
  obtain ⟨hhead, hslot, hdup⟩ := rights.ofRxi (by decide)
  obtain ⟨_, hlaser⟩ := rights.ofTmi (by decide)
  obtain ⟨hinp, hmem⟩ := rights.ofEnv (by decide)
  obtain ⟨hpe, houtp, hgie⟩ := mainStep_keeps_settings ht
  exact ⟨hhead, hslot, rights.ofTxi (by decide), hdup, hpe, hlaser, houtp, hinp, rights.ofLink (.inl rfl),
    rights.ofEnvTmi (by decide) (by decide), hgie, hmem⟩

/-! ## The arming law -/

/-- R195: the ring a byte was just enqueued in is not empty, and the source is armed. -/
theorem armed_sendStep (slot : SlotId) (b : Byte) (rest : List Byte) (hroom : s.tx.isFull = false) :
    (sendStep slot b rest s).armed := by
  rw [sendStep_of_not_full hroom]
  exact iff_of_true rfl (.inl hroom)

theorem armed_rxTake (h : rxTake s = .ok t) (hs : s.armed) : t.armed := by
  rcases rxTake_writes h with rfl | ⟨fc, txie, trace, rfl, ⟨hacks, rfl, rfl⟩ | ⟨_, rfl, rfl⟩⟩
  · exact hs
  · have hpending : s.fc.pendingAcks + 1 ≠ 0 := by
      simp only [Config.pendingAcksMax] at hacks
      bv_omega
    exact iff_of_true rfl (.inr hpending)
  · exact hs

/-- R216: a source that was armed stays so exactly while something is left to send. -/
theorem armed_disarm (h : s.txie = true) : (disarm s).armed := by
  rw [disarm_eq]
  simp [State.armed, h]

theorem armed_txiBody (h : s.txie = true) : (txiBody s).armed := by
  refine armed_disarm ?_
  split
  · exact h
  · rcases sendBuffered_cases s with ⟨_, hb⟩ | ⟨_, hb⟩ <;> rw [hb]
    · exact h
    · exact h

/-- The agents without write rights to the TX ring, the pending acknowledgments and `txie` keep the arming law. -/
theorem WriteRights.armed (h : WriteRights a s t) (hmain : a ≠ .main) (htxi : a ≠ .txi) (hs : s.armed) : t.armed := by
  obtain ⟨_, hhead, _⟩ := h.ofMain hmain
  obtain ⟨hacks, htxie⟩ := h.ofMainTxi hmain htxi
  simpa only [State.armed, RingBuf.isEmpty, hhead, h.ofTxi htxi, hacks, htxie] using hs

theorem Writes.armed (h : Writes s a t) (hs : s.armed) : t.armed := by
  cases h with
  | fault r => exact hs
  | refusal r => exact hs
  | answer v => exact hs
  | wait _ q => exact hs
  | enqueue _ b rest hroom => exact armed_sendStep _ b rest hroom
  | beginRead _ => exact hs
  | idleIteration _ => exact hs
  | take h => exact armed_rxTake h hs
  | endRead _ h =>
    obtain ⟨u, hu, rfl⟩ := finishWait_ok h
    have harmed : u.armed := armed_rxTake hu hs
    exact harmed
  | idleReturn _ => exact hs
  | pulse p _ _ => exact hs
  | outputs o => exact hs
  | initDone => exact hs
  | receive => exact (writeRights_rxiBody s).armed (by decide) (by decide) hs
  | transmit harmed => exact armed_txiBody harmed
  | tick => exact (writeRights_tmiBody s).armed (by decide) (by decide) hs
  | link l _ => exact hs
  | timer => exact hs
  | inputs l => exact hs
  | memory addr v => exact hs

/-- Settles O11: of the writes of the agents, only those of MAIN and TXI touch what the law speaks of. -/
theorem transitionsKeepArming : Obligations.TransitionsKeepArming :=
  ⟨fun i s t hi hs ht => (exec_writes i s hi t ht).armed hs, fun s t hs ht => (mainStep_writes s t ht).armed hs⟩

/-! ## Well-formedness -/

/-- R56: the clauses of `State.Inv` about the mainline. -/
def MainOk (m : MainState) : Prop :=
  (m.inIdle = true → m.mode = .reading) ∧ (m.nested ≠ .idle → m.inIdle = true)

/-- From `s` to `t` every clause of `State.Inv` is kept for itself (`pending_acks` is within its limit as a byte is), and
the machine goes neither on nor off the bench (log 4). A write names the clauses about what it changes; the others are
kept as they stand. -/
structure KeepsInv (s t : State) : Prop where
  rx : s.rx.valid → t.rx.valid := by exact id
  tx : s.tx.valid → t.tx.valid := by exact id
  consumed : s.fc.consumed.toNat < Config.chunkSize → t.fc.consumed.toNat < Config.chunkSize := by exact id
  cursor : s.pe.cursor.toNat ≤ s.pe.sentinel.toNat → t.pe.cursor.toNat ≤ t.pe.sentinel.toNat := by exact id
  mem : Memory.wf s.mem = true → Memory.wf t.mem = true := by exact id
  overrun : (s.uart.rxOvr = true → s.uart.rxFull = true) → t.uart.rxOvr = true → t.uart.rxFull = true := by exact id
  main : MainOk s.main → MainOk t.main := by exact id
  bench : t.bench = s.bench := by exact rfl

theorem KeepsInv.inv (h : KeepsInv s t) (hs : s.Inv) : t.Inv := by
  obtain ⟨hrx, htx, hconsumed, _, hcursor, hmem, hovr, hmain⟩ := hs
  exact ⟨h.rx hrx, h.tx htx, h.consumed hconsumed, Nat.le_of_lt_succ t.fc.pendingAcks.isLt, h.cursor hcursor,
    h.mem hmem, h.overrun hovr, h.main hmain⟩

theorem mainOk_setSlot {m : MainState} {slot : SlotId} (hslot : SlotOpen m slot) (q : List Byte) (h : MainOk m) :
    MainOk (m.setSlot slot q) := by
  obtain ⟨hmode, hnested⟩ := h
  cases slot with
  | top => exact ⟨fun hin => absurd (hmode hin) hslot, hnested⟩
  | nested => exact ⟨hmode, fun _ => hslot⟩

theorem keepsInv_sendStep {slot : SlotId} (hslot : SlotOpen s.main slot) (b : Byte) (rest : List Byte)
    (hroom : s.tx.isFull = false) : KeepsInv s (sendStep slot b rest s) := by
  rw [sendStep_of_not_full hroom]
  exact { tx := push_valid (by decide) (RingBuf.push_of_not_isFull b hroom), main := mainOk_setSlot hslot rest }

/-- R205: outside READING no callback runs, so the read that begins to wait has an empty nested slot. -/
theorem mainOk_beginWait {m : MainState} (hidle : m.mode = .idle) (h : MainOk m) :
    MainOk { m with mode := .reading, inIdle := false } := by
  obtain ⟨hmode, hnested⟩ := h
  refine ⟨fun _ => rfl, fun hn => ?_⟩
  have hread : m.mode = .reading := hmode (hnested hn)
  simp [hidle] at hread

/-- R207: `consumed` is counted up only below the last byte of a chunk. -/
theorem keepsInv_rxTake (h : rxTake s = .ok t) : KeepsInv s t := by
  rcases rxTake_writes h with rfl | ⟨fc, txie, trace, rfl, hfc⟩
  · exact {}
  · have hcount : s.fc.consumed.toNat < Config.chunkSize → fc.consumed.toNat < Config.chunkSize := by
      rcases hfc with ⟨_, rfl, _⟩ | ⟨hchunk, rfl, _⟩
      · exact fun _ => (by decide : 0 < 16)
      · simp only [Config.chunkSize] at hchunk ⊢
        bv_omega
    exact { rx := advanceTail_valid (by decide), consumed := hcount }

theorem rxTake_main (h : rxTake s = .ok t) : t.main = s.main := by
  rcases rxTake_writes h with rfl | ⟨fc, txie, trace, rfl, _⟩
  · rfl
  · rfl

/-- R210: the read that ends waits outside a callback. -/
theorem keepsInv_finishWait (hout : s.main.inIdle = false) (h : finishWait s = .ok t) : KeepsInv s t := by
  obtain ⟨u, hu, rfl⟩ := finishWait_ok h
  have keeps := keepsInv_rxTake hu
  have hout' : u.main.inIdle = false := by rw [rxTake_main hu, hout]
  have hmain : MainOk u.main → MainOk { u.main with mode := .idle } :=
    fun ⟨_, hnested⟩ => ⟨fun hin => absurd hin (by simp [hout']), hnested⟩
  exact { keeps with main := fun hs => hmain (keeps.main hs) }

theorem keepsInv_rxiBody (s : State) : KeepsInv s (rxiBody s) := by
  obtain ⟨trace, dup, rx, consumed, h, hrx, hconsumed⟩ := rxiBody_writes s
  have hvalid : s.rx.valid → rx.valid := by
    rcases hrx with rfl | ⟨b, hpush⟩
    · exact id
    · exact push_valid (by decide) hpush
  have hchunk : s.fc.consumed.toNat < Config.chunkSize → consumed.toNat < Config.chunkSize := by
    rcases hconsumed with rfl | rfl
    · exact id
    · exact fun _ => by decide
  rw [h]
  exact { rx := hvalid, consumed := hchunk, overrun := fun _ => nofun }

theorem keepsInv_txiBody (s : State) : KeepsInv s (txiBody s) := by
  obtain ⟨trace, tail, pendingAcks, txie, txFree, h, htail⟩ := txiBody_writes s
  have hvalid : s.tx.valid → ({ s.tx with tail := tail } : RingBuf Config.txCap).valid := by
    rcases htail with rfl | rfl
    · exact id
    · exact advanceTail_valid (by decide)
  rw [h]
  exact { tx := hvalid }

/-- R233: the cursor advances only while it is below the end. -/
theorem keepsInv_tmiBody (s : State) : KeepsInv s (tmiBody s) := by
  obtain ⟨timer, remaining, cursor, h, hcursor⟩ := pulseTick_writes s.pe s.mem
  have hbelow : s.pe.cursor.toNat ≤ s.pe.sentinel.toNat →
      (s.pe.tick s.mem).1.cursor.toNat ≤ (s.pe.tick s.mem).1.sentinel.toNat := by
    rw [h]
    rcases hcursor with rfl | ⟨hne, rfl⟩
    · exact id
    · intro hle
      bv_omega
  exact { cursor := hbelow }

theorem Writes.keepsInv (h : Writes s a t) : KeepsInv s t := by
  cases h with
  | fault r => exact {}
  | refusal r => exact {}
  | answer v => exact {}
  | wait hslot q => exact { main := mainOk_setSlot hslot q }
  | enqueue hslot b rest hroom => exact keepsInv_sendStep hslot b rest hroom
  | beginRead hidle => exact { main := mainOk_beginWait hidle }
  | idleIteration hread => exact { main := fun _ => ⟨fun _ => hread, fun _ => rfl⟩ }
  | take h => exact keepsInv_rxTake h
  | endRead hout h => exact keepsInv_finishWait hout h
  | idleReturn hfree => exact { main := fun _ => ⟨nofun, fun hn => absurd hfree hn⟩ }
  | pulse p _ hcursor => exact { cursor := hcursor }
  | outputs o => exact {}
  | initDone => exact {}
  | receive => exact keepsInv_rxiBody s
  | transmit _ => exact keepsInv_txiBody s
  | tick => exact keepsInv_tmiBody s
  | link l hovr => exact { overrun := hovr }
  | timer => exact {}
  | inputs l => exact {}
  | memory addr v => exact { mem := Memory.wf_write s.mem addr v }

/-! ## Well-formedness, over the rows that are steps inside a transition (log 4) -/

theorem keepsInv_pushCommand (r : RingId) (b : Byte) (s : State) : KeepsInv s (pushCommand r b s) := by
  unfold pushCommand
  split
  · split
    next q hpush => exact { rx := push_valid (by decide) hpush }
    next => exact {}
  · split
    next q hpush => exact { tx := push_valid (by decide) hpush }
    next => exact {}

theorem keepsInv_popCommand (r : RingId) (s : State) : KeepsInv s (popCommand r s) := by
  unfold popCommand
  split
  · split
    next b q hpop => exact { rx := pop_valid (by decide) hpop }
    next => exact {}
  · split
    next b q hpop => exact { tx := pop_valid (by decide) hpop }
    next => exact {}

theorem keepsInv_ringAnswer (f : State → RingResult) (s : State) :
    Ensures (unitStep (fun t => t.ringResult (f t)) s) (KeepsInv s) :=
  ensures_unitStep {}

theorem keepsInv_execRbIsEmpty (r : RingId) (s : State) : Ensures (execRbIsEmpty r s) (KeepsInv s) :=
  keepsInv_ringAnswer _ s

theorem keepsInv_execRbIsFull (r : RingId) (s : State) : Ensures (execRbIsFull r s) (KeepsInv s) :=
  keepsInv_ringAnswer _ s

theorem keepsInv_execRbLen (r : RingId) (s : State) : Ensures (execRbLen r s) (KeepsInv s) :=
  keepsInv_ringAnswer _ s

theorem keepsInv_rxDeliver (l : Byte) (s : State) : KeepsInv s (rxDeliver l s) := by
  unfold rxDeliver
  split
  next q hpush => exact { rx := push_valid (by decide) hpush }
  next => exact {}

theorem keepsInv_execRxInvalidMarker (l : Byte) (s : State) : Ensures (execRxInvalidMarker l s) (KeepsInv s) := by
  refine ensures_guardLive ?_
  split_ifs
  · exact ensures_next {}
  · exact ensures_refused _

theorem keepsInv_execRxPayload (l : Byte) (s : State) : Ensures (execRxPayload l s) (KeepsInv s) := by
  refine ensures_guardLive ?_
  split_ifs
  · exact ensures_next (keepsInv_rxDeliver l s)
  · exact ensures_refused _

theorem keepsInv_execTxAck (s : State) : Ensures (execTxAck s) (KeepsInv s) := by
  refine ensures_guardLive ?_
  split_ifs
  · exact ensures_refused _
  · exact ensures_next {}

theorem keepsInv_sendOp (b : Byte) (s : State) : Ensures (sendOp b s) (KeepsInv s) :=
  fun t ht => (writes_sendOp b s t ht).keepsInv

theorem exec_keepsInv_of_inner (i : Instr) (s : State) (hi : isTransition i = false) :
    Ensures (exec i s) (KeepsInv s) := by
  cases i with
  | rbPush r b => exact ensures_unitStep (keepsInv_pushCommand r b s)
  | rbPop r => exact ensures_unitStep (keepsInv_popCommand r s)
  | rbIsEmpty r => exact keepsInv_execRbIsEmpty r s
  | rbIsFull r => exact keepsInv_execRbIsFull r s
  | rbLen r => exact keepsInv_execRbLen r s
  | rxReset => exact ensures_unitStep { consumed := fun _ => (by decide : 0 < 16) }
  | rxStop => exact ensures_unitStep {}
  | rxResume => exact ensures_unitStep {}
  | rxStatus => exact ensures_unitStep {}
  | rxSuperstatus => exact ensures_unitStep {}
  | rxInvalidMarker l => exact keepsInv_execRxInvalidMarker l s
  | rxPayload l => exact keepsInv_execRxPayload l s
  | txAck => exact keepsInv_execTxAck s
  | txStatusEnd => exact keepsInv_sendOp _ s
  | txParamValue g => exact keepsInv_sendOp _ s
  | txParamTag tag => exact keepsInv_sendOp _ s
  | txRaw b => exact keepsInv_sendOp b s
  | sendByte | sendParam | readByte | bytesAvailable | idleReturn | setPulseDuration | setPulseFrequency | startRaster
  | setAir | setAux1 | setAux2 | readDoor | readChiller | readLimit | initDone | evRx | evTxReady | evTick | rxArrive
  | txDone | tick | inputSet | memWrite => cases hi

/-! ## Steps and runs -/

theorem exec_keepsInv (i : Instr) (s : State) : Ensures (exec i s) (KeepsInv s) := by
  cases hi : isTransition i with
  | true => exact fun t ht => (exec_writes i s hi t ht).keepsInv
  | false => exact exec_keepsInv_of_inner i s hi

theorem rejectUnit_writes (e : DecodeError) (s : State) : Ensures (rejectUnit e s) (Writes s a) :=
  ensures_guardLive (writes_refuse _)

/-- Taking a line off the script changes nothing that the clauses speak of. -/
theorem step_keepsInv (h : step s = .next t) (hs : s.Inv) : t.Inv ∧ t.bench = s.bench := by
  obtain ⟨rest, _, hk⟩ | ⟨_, _, rest, i, _, _, _, _, hk⟩ | ⟨_, _, rest, e, _, _, hk⟩ := step_next h
  · have keeps := (mainStep_writes _ t hk).keepsInv
    exact ⟨keeps.inv hs, keeps.bench⟩
  · have keeps := exec_keepsInv i _ t hk
    exact ⟨keeps.inv hs, keeps.bench⟩
  · have keeps := (rejectUnit_writes (a := .main) e _ t hk).keepsInv
    exact ⟨keeps.inv hs, keeps.bench⟩

/-- Off the bench every step is a transition of R280 or a refused unit, and keeps the arming law. -/
theorem step_keepsArming (hb : s.bench = false) (hs : s.armed) (h : step s = .next t) : t.armed := by
  obtain ⟨rest, _, hk⟩ | ⟨_, _, rest, i, _, _, _, hi, hk⟩ | ⟨_, _, rest, e, _, _, hk⟩ := step_next h
  · exact (mainStep_writes _ t hk).armed hs
  · have htransition : isTransition i = true := hi.resolve_right (by simp [hb])
    exact (exec_writes i _ htransition t hk).armed hs
  · exact (rejectUnit_writes (a := .main) e _ t hk).armed hs

/-- Settles O8: the script is no part of what the two laws speak of, and the reset state is concrete. -/
theorem resetMeetsInvariants : Obligations.ResetMeetsInvariants := by
  intro script
  show State.reset.Inv ∧ State.reset.armed
  decide

/-- Settles O9: a transition does writes of its agent, which keep the state well formed; the rows that are steps inside
one keep it too. -/
theorem stepKeepsInvariant : Obligations.StepKeepsInvariant :=
  fun _ _ hs ht => step_keepsInv ht hs

/-- Settles O10, by induction on the run from reset. -/
theorem reachableStatesMeetInvariant : Obligations.ReachableStatesMeetInvariant := by
  intro s hs
  induction hs with
  | start script =>
    obtain ⟨hinv, harmed⟩ := resetMeetsInvariants script
    exact ⟨hinv, harmed, rfl⟩
  | step s t _ hstep ih =>
    obtain ⟨hinv, harmed, hbench⟩ := ih
    obtain ⟨hinv', hbench'⟩ := stepKeepsInvariant s t hinv hstep
    exact ⟨hinv', step_keepsArming hbench harmed hstep, hbench'.trans hbench⟩

end Sys2Proof.Proofs
end

section
/-! PROOFS. 20_memory.md R95: the transmitter drains. `outgoing` lists the bytes that wait, in the order in which
R218 sends them; a round of `TXALL` (R135) sends the first of them and leaves the others (`round_sends_first`), and O43
follows by induction on the bytes that wait. -/

namespace Sys2Proof.Proofs

open Sys2Proof Sys2Proof.Machine

variable {s : State} {b : Byte} {q : List Byte} {rest : List Input}

/-! ## The contents of a ring -/

section Ring

variable {C : Nat} {r : RingBuf C}

/-- R154 without the modulus: the head stands at or after the tail, or it has wrapped. -/
theorem ringLength_cases (hr : r.valid) :
    (r.tail.toNat ≤ r.head.toNat ∧ r.length = r.head.toNat - r.tail.toNat) ∨
    (r.head.toNat < r.tail.toNat ∧ r.length = r.head.toNat + C - r.tail.toNat) := by
  obtain ⟨hhead, htail⟩ := hr
  rcases Nat.lt_or_ge r.head.toNat r.tail.toNat with hlt | hge
  · right
    have hmod : ((r.head.toNat : Int) + C - r.tail.toNat) % C = (r.head.toNat : Int) + C - r.tail.toNat :=
      Int.emod_eq_of_lt (by omega) (by omega)
    rw [RingBuf.length, hmod]
    omega
  · left
    have hmod : ((r.head.toNat : Int) + C - r.tail.toNat) % C = (r.head.toNat : Int) - r.tail.toNat := by
      rw [show (r.head.toNat : Int) + C - r.tail.toNat = (r.head.toNat - r.tail.toNat) + C by omega, Int.add_emod_right]
      exact Int.emod_eq_of_lt (by omega) (by omega)
    rw [RingBuf.length, hmod]
    omega

theorem ringContents_length (r : RingBuf C) : r.contents.length = r.length := by
  simp [RingBuf.contents]

/-- R152, R154: an empty ring is one of length 0. -/
theorem ringIsEmpty_iff_length (hr : r.valid) : r.isEmpty = true ↔ r.length = 0 := by
  have htail := hr.2
  rw [RingBuf.isEmpty, beq_iff_eq, ← BitVec.toNat_inj]
  rcases ringLength_cases hr with ⟨_, hlength⟩ | ⟨_, hlength⟩ <;> omega

theorem ringIsEmpty_iff_contents (hr : r.valid) : r.isEmpty = true ↔ r.contents = [] := by
  rw [ringIsEmpty_iff_length hr, ← ringContents_length, List.length_eq_zero_iff]

/-- R151: taking the oldest item shortens the ring by one. -/
theorem ringLength_eq_advanceTail_succ (hC : C ≤ 256) (hr : r.valid) (he : r.isEmpty = false) :
    r.length = ({ r with tail := ringNext C r.tail } : RingBuf C).length + 1 := by
  have hnonempty : r.length ≠ 0 := fun h => by simp [(ringIsEmpty_iff_length hr).mpr h] at he
  have hnext : (ringNext C r.tail).toNat = r.tail.toNat + 1 ∨
      ((ringNext C r.tail).toNat = 0 ∧ r.tail.toNat + 1 = C) := by
    rw [ringNext_toNat (by have := hr.2; omega) hC]
    rcases Nat.lt_or_ge (r.tail.toNat + 1) C with h | h
    · exact .inl (Nat.mod_eq_of_lt h)
    · have hwrap : r.tail.toNat + 1 = C := Nat.le_antisymm hr.2 h
      exact .inr ⟨by rw [hwrap, Nat.mod_self], hwrap⟩
  have hlength := ringLength_cases hr
  have hlength' := ringLength_cases (advanceTail_valid hC hr)
  obtain ⟨hhead, _⟩ := hr
  simp only [] at hlength'
  omega

/-- R151: the item at the tail is the oldest, and the others stay in their order. -/
theorem ringContents_eq_cons (hC : C ≤ 256) (hr : r.valid) (he : r.isEmpty = false) :
    r.contents = r.slotAt r.tail :: ({ r with tail := ringNext C r.tail } : RingBuf C).contents := by
  have hfirst : BitVec.ofNat 8 ((r.tail.toNat + 0) % C) = r.tail := by
    rw [Nat.add_zero, Nat.mod_eq_of_lt hr.2, BitVec.ofNat_toNat, BitVec.setWidth_eq]
  have hnext (k : Nat) : (r.tail.toNat + (k + 1)) % C = ((ringNext C r.tail).toNat + k) % C := by
    rw [ringNext_toNat (by have := hr.2; omega) hC, Nat.mod_add_mod, Nat.add_assoc, Nat.add_comm 1 k]
  rw [RingBuf.contents, ringLength_eq_advanceTail_succ hC hr he, List.range_succ_eq_map, List.map_cons, hfirst,
    List.map_map]
  refine congrArg (r.slotAt r.tail :: ·) (List.map_congr_left fun k _ => ?_)
  simp only [Function.comp_apply, Nat.succ_eq_add_one, hnext]
  rfl

end Ring

/-! ## The bytes that wait to be sent -/

/-- R95, R218: the bytes that wait to be sent, first one first: an acknowledgment goes before any buffered byte. -/
def outgoing (s : State) : List Byte :=
  List.replicate s.fc.pendingAcks.toNat Config.codeAck ++ s.tx.contents

@[simp] theorem outgoing_withScript (l : List Input) : outgoing (s.withScript l) = outgoing s := rfl

theorem outgoing_eq_nil : outgoing s = [] ↔ s.fc.pendingAcks = 0 ∧ s.tx.contents = [] := by
  rw [outgoing, List.append_eq_nil_iff, List.replicate_eq_nil_iff, ← BitVec.toNat_inj]
  rfl

theorem outgoing_length (s : State) : (outgoing s).length = s.fc.pendingAcks.toNat + s.tx.length := by
  rw [outgoing, List.length_append, List.length_replicate, ringContents_length]

/-- R67, last clause, over the bytes that wait. -/
theorem armed_iff_outgoing (hv : s.tx.valid) : s.armed ↔ (s.txie = true ↔ outgoing s ≠ []) := by
  rw [Ne, outgoing_eq_nil, ← ringIsEmpty_iff_contents hv, State.armed, ← Bool.not_eq_true]
  tauto

/-- R214: while an acknowledgment is pending it is the first byte, and sending it leaves the others. -/
theorem outgoing_of_pending (h : s.fc.pendingAcks ≠ 0) :
    outgoing s = Config.codeAck :: outgoing (sendAck s) := by
  have hcount : s.fc.pendingAcks.toNat = (s.fc.pendingAcks - 1).toNat + 1 := by bv_omega
  rw [outgoing, hcount, List.replicate_succ, List.cons_append]
  rfl

/-- R215: with no acknowledgment pending the oldest buffered byte is the first. -/
theorem outgoing_of_no_pending (h : s.fc.pendingAcks = 0) : outgoing s = s.tx.contents := by
  simp [outgoing, h]

/-! ## One activation of the transmit-ready handler -/

/-- What sending the byte `b` does: one event, the bytes `q` still wait, the transmitter is busy, the script is kept. -/
structure Sends (s t : State) (b : Byte) (q : List Byte) : Prop where
  trace : t.trace = s.trace ++ [.tx b]
  outgoing : outgoing t = q
  busy : t.uart.txFree = false
  script : t.script = s.script

theorem sendAck_sends (hacks : s.fc.pendingAcks ≠ 0) (hq : outgoing s = b :: q) : Sends s (sendAck s) b q := by
  obtain ⟨rfl, hrest⟩ := List.cons.inj ((outgoing_of_pending hacks).symm.trans hq)
  exact ⟨rfl, hrest, rfl, rfl⟩

theorem sendBuffered_sends (hv : s.tx.valid) (hacks : s.fc.pendingAcks = 0) (hq : outgoing s = b :: q) :
    Sends s (sendBuffered s) b q := by
  have hcontents : s.tx.contents = b :: q := (outgoing_of_no_pending hacks).symm.trans hq
  rcases sendBuffered_cases s with ⟨he, _⟩ | ⟨he, h⟩
  · simp [(ringIsEmpty_iff_contents hv).mp he] at hcontents
  · obtain ⟨rfl, hrest⟩ := List.cons.inj ((ringContents_eq_cons (by decide) hv he).symm.trans hcontents)
    rw [h]
    exact ⟨rfl, Eq.trans (outgoing_of_no_pending hacks) hrest, rfl, rfl⟩

/-- R216: the disarm test sends nothing and takes no byte. -/
theorem Sends.disarm {t : State} (h : Sends s t b q) : Sends s (disarm t) b q := by
  rw [disarm_eq]
  exact ⟨h.trace, h.outgoing, h.busy, h.script⟩

/-- R218: an activation sends the first byte that waits. -/
theorem txiBody_sends (hv : s.tx.valid) (hq : outgoing s = b :: q) : Sends s (txiBody s) b q := by
  refine Sends.disarm ?_
  split
  next hacks => exact sendAck_sends hacks hq
  next hacks => exact sendBuffered_sends hv (not_not.mp hacks) hq

/-! ## Steps that a script line chooses -/

/-- R280: a line whose unit decodes to a whole transition runs that instruction. -/
theorem step_of_input {i : Instr} (hscript : s.script = i.input :: rest)
    (hdecode : decode (formatOf i) (encode i) = .instr i []) (hi : isTransition i = true) :
    step s = exec i (s.withScript rest) := by
  simp [step, fetch, hscript, Instr.input, hdecode, hi]

/-- R283: `RUN TXI` while the source is enabled. -/
theorem step_runTxi (hl : s.live) (he : s.txiEnabled = true) (hscript : s.script = Instr.evTxReady.input :: rest) :
    step s = .next (txiBody (s.withScript rest)) := by
  rw [step_of_input hscript rfl rfl]
  exact enterHandler_next.mpr ⟨hl, he, rfl⟩

/-- The transmitter is free again (R286). -/
def freeTransmitter (s : State) : State := { s with uart := { s.uart with txFree := true } }

/-- R286: `TXDONE` while the transmitter is busy. -/
theorem step_txDone (hl : s.live) (hbusy : s.uart.txFree = false) (hscript : s.script = Instr.txDone.input :: rest) :
    step s = .next (freeTransmitter (s.withScript rest)) := by
  rw [step_of_input hscript rfl rfl]
  exact admitEvent_next.mpr ⟨hl, by simp [hbusy], rfl⟩

theorem stepsRun_of_step {t : State} (h : step s = .next t) (n : Nat) : stepsRun (n + 1) s = stepsRun n t := by
  rw [stepsRun, h]

/-! ## Rounds of `TXALL` -/

/-- What every step of a round keeps: no stop is recorded, interrupts are enabled, the TX indices are legal and the
source is armed exactly while there is something to send (R67). -/
structure Transmitting (s : State) : Prop where
  live : s.live
  gie : s.gie = true
  valid : s.tx.valid
  armed : s.armed

theorem Transmitting.withScript (h : Transmitting s) (l : List Input) : Transmitting (s.withScript l) :=
  ⟨h.live, h.gie, h.valid, h.armed⟩

theorem Transmitting.freeTransmitter (h : Transmitting s) : Transmitting (freeTransmitter s) :=
  ⟨h.live, h.gie, h.valid, h.armed⟩

theorem Transmitting.txiBody (h : Transmitting s) (htxie : s.txie = true) : Transmitting (txiBody s) := by
  have effect := extends_txiBody s
  obtain ⟨hfaults, hrefused⟩ := h.live
  exact {
    live := ⟨effect.faults_eq.trans hfaults, effect.refused_eq.trans hrefused⟩
    gie := effect.gie_kept h.gie
    valid := (keepsInv_txiBody s).tx h.valid
    armed := armed_txiBody htxie }

theorem Transmitting.txie_iff (h : Transmitting s) : s.txie = true ↔ outgoing s ≠ [] :=
  (armed_iff_outgoing h.valid).mp h.armed

/-- The lines of `n` rounds (R135). -/
def roundLines (n : Nat) : List Line := (List.replicate n [Line.runTxi, Line.txDone]).flatten

theorem txAllLines_eq (s : State) : txAllLines s = roundLines (outgoing s).length := by
  rw [outgoing_length]
  rfl

theorem scriptOf_roundLines_succ (n : Nat) :
    scriptOf (roundLines (n + 1)) = Instr.evTxReady.input :: Instr.txDone.input :: scriptOf (roundLines n) := by
  rw [roundLines, List.replicate_succ]
  rfl

/-- R218, R283: while a byte waits, `RUN TXI` sends the first one and takes its line off the script. -/
theorem activation_sends_first (h : Transmitting s) (hfree : s.uart.txFree = true) (hq : outgoing s = b :: q)
    (hscript : s.script = Instr.evTxReady.input :: rest) :
    ∃ t, step s = .next t ∧ Transmitting t ∧ Sends (s.withScript rest) t b q := by
  have htxie : s.txie = true := h.txie_iff.mpr (by simp [hq])
  have henabled : s.txiEnabled = true := by simp [State.txiEnabled, htxie, hfree, h.gie]
  have hsends := txiBody_sends (s := s.withScript rest) h.valid ((outgoing_withScript rest).trans hq)
  exact ⟨_, step_runTxi h.live henabled hscript, (h.withScript rest).txiBody htxie, hsends⟩

/-- R218, R286: while a byte waits, a round sends the first one and takes its two lines off the script. -/
theorem round_sends_first (h : Transmitting s) (hfree : s.uart.txFree = true) (hq : outgoing s = b :: q)
    (hscript : s.script = Instr.evTxReady.input :: Instr.txDone.input :: rest) :
    ∃ t, (∀ n, stepsRun (n + 2) s = stepsRun n t) ∧ Transmitting t ∧ t.uart.txFree = true ∧
      t.trace = s.trace ++ [.tx b] ∧ outgoing t = q ∧ t.script = rest := by
  obtain ⟨u, hactivation, hu, hsends⟩ := activation_sends_first h hfree hq hscript
  have hdone := step_txDone hu.live hsends.busy hsends.script
  refine ⟨freeTransmitter (u.withScript rest), fun n => ?_, (hu.withScript rest).freeTransmitter, rfl,
    hsends.trace, hsends.outgoing, rfl⟩
  rw [stepsRun_of_step hactivation, stepsRun_of_step hdone]

/-- R95, R219: as many rounds as bytes wait send them all in order, by induction on those bytes. -/
theorem rounds_send_all (q : List Byte) (s : State) (h : Transmitting s) (hfree : s.uart.txFree = true)
    (hq : outgoing s = q) (hscript : s.script = scriptOf (roundLines q.length) ++ rest) :
    ∃ t, stepsRun (2 * q.length) s = .next t ∧ Transmitting t ∧ t.uart.txFree = true ∧
      t.trace = s.trace ++ q.map .tx ∧ outgoing t = [] ∧ t.script = rest := by
  induction q generalizing s with
  | nil => exact ⟨s, rfl, h, hfree, by simp, hq, hscript⟩
  | cons b q ih =>
    rw [List.length_cons, scriptOf_roundLines_succ] at hscript
    obtain ⟨u, hrun, hu, hufree, htrace, hwait, hrest⟩ := round_sends_first h hfree hq hscript
    obtain ⟨t, hrun', ht, htfree, htrace', hnone, hrest'⟩ := ih u hu hufree hwait hrest
    refine ⟨t, (hrun _).trans hrun', ht, htfree, ?_, hnone, hrest'⟩
    rw [htrace', htrace, List.map_cons, List.append_assoc, List.singleton_append]

/-- Settles O43: something waits and the source is armed, so `TXALL` is as many rounds as bytes wait; when none is left
the arming law (R67) says that the source is disarmed. -/
theorem transmitterDrains : Obligations.TransmitterDrains := by
  intro s rest hlive hgie htxie hfree hvalid hwork
  have hsome : outgoing s ≠ [] := by
    rw [Ne, outgoing_eq_nil]
    tauto
  have hstart : Transmitting s := ⟨hlive, hgie, hvalid, (armed_iff_outgoing hvalid).mpr (iff_of_true htxie hsome)⟩
  rw [txAllLines_eq, ← outgoing_length]
  obtain ⟨t, hrun, ht, htfree, htrace, hnone, hscript⟩ :=
    rounds_send_all (outgoing s) _ (hstart.withScript (scriptOf (roundLines (outgoing s).length) ++ rest)) hfree
      (outgoing_withScript _) rfl
  have hevents : t.trace = s.trace ++ List.replicate s.fc.pendingAcks.toNat (.tx Config.codeAck) ++
      s.tx.contents.map .tx := by
    rw [htrace, State.withScript_trace, outgoing, List.map_append, List.map_replicate, List.append_assoc]
  obtain ⟨hacks, hcontents⟩ := outgoing_eq_nil.mp hnone
  have hdisarmed : t.txie = false := by simpa [hnone] using ht.txie_iff
  exact ⟨t, hrun, hevents, hacks, hcontents, hdisarmed, htfree, hscript⟩

end Sys2Proof.Proofs
end

section
/-! PROOFS. 30_encoding.md: the decoder and the encoder are inverse to each other (O5, O6), the classes of a logical byte
(O4), the lines of a script that are no instruction (O2) and the written-out words (O3). The layer below says once for
each operand type (R129, R131, R132) how its bytes are read back and what a decoder that reads it has read. -/

namespace Sys2Proof.Proofs

open Sys2Proof Sys2Proof.Machine

variable {f : Format} {i : Instr} {pre bs rest : List Byte} {l : Byte} {s : State}

/-! ## An operand's bytes are read back -/

@[simp] theorem takeU16_u16Bytes (v : U16) (rest : List Byte) (k : U16 → List Byte → Decoded) :
    takeU16 (u16Bytes v ++ rest) k = k v rest := by
  refine congrArg (k · rest) (BitVec.eq_of_toNat_eq ?_)
  simp only [BitVec.toNat_ofNat]
  omega

@[simp] theorem takeF64_f64Bytes (v : F64) (rest : List Byte) (k : F64 → List Byte → Decoded) :
    takeF64 (f64Bytes v ++ rest) k = k v rest := by
  refine congrArg (k · rest) (BitVec.eq_of_toNat_eq ?_)
  simp only [BitVec.toNat_ofNat]
  omega

@[simp] theorem takeBool_boolByte (v : Bool) (rest : List Byte) (k : Bool → List Byte → Decoded) :
    takeBool (boolByte v :: rest) k = k v rest := by
  cases v <;> rfl

@[simp] theorem takeRing_ringByte (r : RingId) (rest : List Byte) (k : RingId → List Byte → Decoded) :
    takeRing (ringByte r :: rest) k = k r rest := by
  cases r <;> rfl

@[simp] theorem takeLine_lineByte (line : InputLine) (rest : List Byte) (k : InputLine → List Byte → Decoded) :
    takeLine (lineByte line :: rest) k = k line rest := by
  cases line with
  | door => rfl
  | chiller => rfl
  | limit i => fin_cases i <;> rfl

/-! ## What a decoder that reads an operand has read -/

/-- A domain's decoder that has read the bytes `pre`, has `bs` before it and answers `d` is exact: what it answers is
a well-formed instruction of the domain `f`, and all these bytes are its encoding and the bytes left over. -/
def ReadsExactly (f : Format) (pre bs : List Byte) (d : Decoded) : Prop :=
  ∀ i rest, d = .instr i rest → i.wellFormed = true ∧ formatOf i = f ∧ pre ++ bs = encode i ++ rest

theorem readsExactly_reject (e : DecodeError) : ReadsExactly f pre bs (.reject e) := by
  intro i rest h
  cases h

/-- A decoder may end once it has read an encoding. -/
theorem readsExactly_instr (hwf : i.wellFormed = true) (hf : formatOf i = f) (hencode : encode i = pre) :
    ReadsExactly f pre bs (.instr i bs) := by
  intro j rest h
  cases h
  exact ⟨hwf, hf, by rw [hencode]⟩

/-- The first byte may be read before the rest is. -/
theorem readsExactly_cons {b : Byte} {d : Decoded} (h : ReadsExactly f [b] bs d) : ReadsExactly f [] (b :: bs) d := h

theorem readsExactly_takeByte {k : Byte → List Byte → Decoded}
    (h : ∀ b rest, ReadsExactly f (pre ++ [b]) rest (k b rest)) : ReadsExactly f pre bs (takeByte bs k) := by
  cases bs with
  | nil => exact readsExactly_reject _
  | cons b rest => simpa [ReadsExactly, takeByte] using h b rest

theorem u16Bytes_ofNat (b0 b1 : Byte) : u16Bytes (BitVec.ofNat 16 (b0.toNat + 2 ^ 8 * b1.toNat)) = [b0, b1] := by
  simp only [u16Bytes, List.cons.injEq, and_true]
  constructor <;> bv_omega

theorem readsExactly_takeU16 {k : U16 → List Byte → Decoded}
    (h : ∀ v rest, ReadsExactly f (pre ++ u16Bytes v) rest (k v rest)) : ReadsExactly f pre bs (takeU16 bs k) := by
  unfold takeU16
  split
  next b0 b1 rest =>
    have hv := h (BitVec.ofNat 16 (b0.toNat + 2 ^ 8 * b1.toNat)) rest
    rw [u16Bytes_ofNat] at hv
    simpa [ReadsExactly] using hv
  next => exact readsExactly_reject _

theorem f64Bytes_ofNat (b0 b1 b2 b3 b4 b5 b6 b7 : Byte) :
    f64Bytes (BitVec.ofNat 64 (b0.toNat + 2 ^ 8 * b1.toNat + 2 ^ 16 * b2.toNat + 2 ^ 24 * b3.toNat + 2 ^ 32 * b4.toNat +
      2 ^ 40 * b5.toNat + 2 ^ 48 * b6.toNat + 2 ^ 56 * b7.toNat)) = [b0, b1, b2, b3, b4, b5, b6, b7] := by
  simp only [f64Bytes, List.cons.injEq, and_true]
  refine ⟨?_, ?_, ?_, ?_, ?_, ?_, ?_, ?_⟩ <;> bv_omega

theorem readsExactly_takeF64 {k : F64 → List Byte → Decoded}
    (h : ∀ v rest, ReadsExactly f (pre ++ f64Bytes v) rest (k v rest)) : ReadsExactly f pre bs (takeF64 bs k) := by
  unfold takeF64
  split
  next b0 b1 b2 b3 b4 b5 b6 b7 rest =>
    have hv := h (BitVec.ofNat 64 (b0.toNat + 2 ^ 8 * b1.toNat + 2 ^ 16 * b2.toNat + 2 ^ 24 * b3.toNat +
      2 ^ 32 * b4.toNat + 2 ^ 40 * b5.toNat + 2 ^ 48 * b6.toNat + 2 ^ 56 * b7.toNat)) rest
    rw [f64Bytes_ofNat] at hv
    simpa [ReadsExactly] using hv
  next => exact readsExactly_reject _

theorem readsExactly_takeBool {k : Bool → List Byte → Decoded}
    (h : ∀ v rest, ReadsExactly f (pre ++ [boolByte v]) rest (k v rest)) : ReadsExactly f pre bs (takeBool bs k) := by
  refine readsExactly_takeByte fun b rest => ?_
  split_ifs with hfalse htrue
  · exact hfalse ▸ h false rest
  · exact htrue ▸ h true rest
  · exact readsExactly_reject _

theorem readsExactly_takeRing {k : RingId → List Byte → Decoded}
    (h : ∀ r rest, ReadsExactly f (pre ++ [ringByte r]) rest (k r rest)) : ReadsExactly f pre bs (takeRing bs k) := by
  refine readsExactly_takeByte fun b rest => ?_
  split_ifs with hrx htx
  · exact hrx ▸ h .rx rest
  · exact htx ▸ h .tx rest
  · exact readsExactly_reject _

/-- A decoder that splits on the number of a byte knows the byte. -/
theorem exists_ofNat_toNat (b : Byte) : ∃ n, b = BitVec.ofNat 8 n ∧ b.toNat = n :=
  ⟨b.toNat, by rw [BitVec.ofNat_toNat, BitVec.setWidth_eq], rfl⟩

theorem readsExactly_takeLine {k : InputLine → List Byte → Decoded}
    (h : ∀ line rest, ReadsExactly f (pre ++ [lineByte line]) rest (k line rest)) :
    ReadsExactly f pre bs (takeLine bs k) := by
  refine readsExactly_takeByte fun b rest => ?_
  obtain ⟨n, rfl, hn⟩ := exists_ofNat_toNat b
  rw [hn]
  split
  exacts [h .door rest, h .chiller rest, h (.limit 0) rest, h (.limit 1) rest, h (.limit 2) rest, h (.limit 3) rest,
    h (.limit 4) rest, h (.limit 5) rest, readsExactly_reject _]

/-! ## The decoders of R129, R131, R132, row by row -/

theorem decodeOp_readsExactly (bytes : List Byte) : ReadsExactly .op [] bytes (decodeOp bytes) := by
  unfold decodeOp
  split
  next => exact readsExactly_reject _
  next op bs =>
    refine readsExactly_cons ?_
    obtain ⟨n, rfl, hn⟩ := exists_ofNat_toNat op
    rw [hn]
    split
    · exact readsExactly_takeByte fun _ _ => readsExactly_instr rfl rfl rfl
    · exact readsExactly_takeByte fun _ _ => readsExactly_takeF64 fun _ _ => readsExactly_instr rfl rfl rfl
    · exact readsExactly_instr rfl rfl rfl
    · exact readsExactly_instr rfl rfl rfl
    · exact readsExactly_instr rfl rfl rfl
    · exact readsExactly_takeByte fun _ _ => readsExactly_instr rfl rfl rfl
    · exact readsExactly_takeU16 fun _ _ => readsExactly_instr rfl rfl rfl
    · exact readsExactly_takeU16 fun _ _ => readsExactly_takeU16 fun _ _ => readsExactly_instr rfl rfl rfl
    · exact readsExactly_takeBool fun _ _ => readsExactly_instr rfl rfl rfl
    · exact readsExactly_takeBool fun _ _ => readsExactly_instr rfl rfl rfl
    · exact readsExactly_takeBool fun _ _ => readsExactly_instr rfl rfl rfl
    · exact readsExactly_instr rfl rfl rfl
    · exact readsExactly_instr rfl rfl rfl
    · exact readsExactly_takeByte fun _ _ => readsExactly_instr rfl rfl rfl
    · exact readsExactly_instr rfl rfl rfl
    · exact readsExactly_reject _

theorem decodeRb_readsExactly (bytes : List Byte) : ReadsExactly .rb [] bytes (decodeRb bytes) := by
  unfold decodeRb
  split
  next => exact readsExactly_reject _
  next op bs =>
    refine readsExactly_cons ?_
    obtain ⟨n, rfl, hn⟩ := exists_ofNat_toNat op
    rw [hn]
    split
    · exact readsExactly_takeRing fun _ _ => readsExactly_takeByte fun _ _ => readsExactly_instr rfl rfl rfl
    · exact readsExactly_takeRing fun _ _ => readsExactly_instr rfl rfl rfl
    · exact readsExactly_takeRing fun _ _ => readsExactly_instr rfl rfl rfl
    · exact readsExactly_takeRing fun _ _ => readsExactly_instr rfl rfl rfl
    · exact readsExactly_takeRing fun _ _ => readsExactly_instr rfl rfl rfl
    · exact readsExactly_reject _

theorem decodeEv_readsExactly (bytes : List Byte) : ReadsExactly .ev [] bytes (decodeEv bytes) := by
  unfold decodeEv
  split
  next => exact readsExactly_reject _
  next ev bs =>
    refine readsExactly_cons ?_
    obtain ⟨n, rfl, hn⟩ := exists_ofNat_toNat ev
    rw [hn]
    split
    · exact readsExactly_instr rfl rfl rfl
    · exact readsExactly_instr rfl rfl rfl
    · exact readsExactly_instr rfl rfl rfl
    · exact readsExactly_takeByte fun _ _ => readsExactly_instr rfl rfl rfl
    · exact readsExactly_instr rfl rfl rfl
    · exact readsExactly_instr rfl rfl rfl
    · exact readsExactly_takeLine fun _ _ => readsExactly_takeBool fun _ _ => readsExactly_instr rfl rfl rfl
    · exact readsExactly_takeU16 fun _ _ => readsExactly_takeByte fun _ _ => readsExactly_instr rfl rfl rfl
    · exact readsExactly_reject _

/-! ## The classes of an inbound and of an outbound byte -/

/-- R113: none of the four codes that are dispatched before the printable test. -/
def NoInboundCode (l : Byte) : Prop :=
  l ≠ Config.codeStop ∧ l ≠ Config.codeResume ∧ l ≠ Config.codeStatus ∧ l ≠ Config.codeSuperstatus

theorem isInvalidMarker_iff :
    isInvalidMarker l = true ↔ l.toNat < Config.printableMin ∧ NoInboundCode l ∧ l ≠ Config.codeReset := by
  simp [isInvalidMarker, NoInboundCode, and_assoc]

theorem isPayload_iff : isPayload l = true ↔ Config.printableMin ≤ l.toNat := by
  simp [isPayload]

/-- R117: every control code lies below the printable range. -/
theorem ne_of_printable {c : Byte} (hl : Config.printableMin ≤ l.toNat)
    (hc : c.toNat < Config.printableMin := by decide) : l ≠ c := by
  rintro rfl
  omega

theorem noInboundCode_of_printable (h : Config.printableMin ≤ l.toNat) : NoInboundCode l :=
  ⟨ne_of_printable h, ne_of_printable h, ne_of_printable h, ne_of_printable h⟩

theorem decodeLogical_of_noInboundCode (h : NoInboundCode l) :
    decodeLogical l = if l.toNat < Config.printableMin then .rxInvalidMarker l else .rxPayload l := by
  obtain ⟨hstop, hresume, hstatus, hsuper⟩ := h
  simp only [decodeLogical, hstop, hresume, hstatus, hsuper, if_false]

theorem decodeLogical_invalidMarker (h : NoInboundCode l) (hl : l.toNat < Config.printableMin) :
    decodeLogical l = .rxInvalidMarker l := by
  rw [decodeLogical_of_noInboundCode h, if_pos hl]

theorem decodeLogical_payload (hl : Config.printableMin ≤ l.toNat) : decodeLogical l = .rxPayload l := by
  rw [decodeLogical_of_noInboundCode (noInboundCode_of_printable hl), if_neg (Nat.not_lt.mpr hl)]

/-- R113, R179: the handler dispatches a sub-printable byte that is no code as its decoded class says. -/
theorem rxDispatch_invalidMarker (h : NoInboundCode l) (hl : l.toNat < Config.printableMin) :
    rxDispatch l s = rxInvalid s := by
  obtain ⟨hstop, hresume, hstatus, hsuper⟩ := h
  simp only [rxDispatch, hstop, hresume, hstatus, hsuper, hl, if_true, if_false]

/-- R113: a sub-printable byte is never buffered. -/
theorem rxDispatch_rx_of_subprintable (hl : l.toNat < Config.printableMin) : (rxDispatch l s).rx = s.rx := by
  rcases rxDispatch_cases l s with ⟨k, h⟩ | h | ⟨hprintable, _⟩
  · rw [h]; rfl
  · rw [h]; rfl
  · omega

theorem decodeWrx_of_ne_reset (h : l ≠ Config.codeReset) (rest : List Byte) :
    decodeWrx (l :: rest) = .instr (decodeLogical l) rest := by
  rw [decodeWrx, if_neg h]

/-- R113, R114: the class of a logical byte is well formed and has the byte as its word. -/
theorem decodeLogical_readsExactly (h : l ≠ Config.codeReset) :
    ReadsExactly .wrx [l] rest (.instr (decodeLogical l) rest) := by
  by_cases hcode : NoInboundCode l
  · rcases Nat.lt_or_ge l.toNat Config.printableMin with hl | hl
    · rw [decodeLogical_invalidMarker hcode hl]
      exact readsExactly_instr (isInvalidMarker_iff.mpr ⟨hl, hcode, h⟩) rfl rfl
    · rw [decodeLogical_payload hl]
      exact readsExactly_instr (isPayload_iff.mpr hl) rfl rfl
  · have hcodes : l = Config.codeStop ∨ l = Config.codeResume ∨ l = Config.codeStatus ∨ l = Config.codeSuperstatus := by
      unfold NoInboundCode at hcode
      tauto
    rcases hcodes with rfl | rfl | rfl | rfl <;> exact readsExactly_instr rfl rfl rfl

theorem decodeWrx_readsExactly (bytes : List Byte) : ReadsExactly .wrx [] bytes (decodeWrx bytes) := by
  cases bytes with
  | nil => exact readsExactly_reject _
  | cons b rest =>
    by_cases hreset : b = Config.codeReset
    · subst hreset
      exact readsExactly_cons (readsExactly_instr rfl rfl rfl)
    · rw [decodeWrx_of_ne_reset hreset]
      exact readsExactly_cons (decodeLogical_readsExactly hreset)

theorem paramValueByte_toNat (g : BitVec 7) : (paramValueByte g).toNat = 2 ^ 7 + g.toNat := by
  rw [paramValueByte, BitVec.toNat_ofNat]
  omega

theorem paramTagByte_toNat (tag : BitVec 7) : (paramTagByte tag).toNat = tag.toNat := by
  rw [paramTagByte, BitVec.toNat_ofNat]
  omega

/-- R124: a byte with bit 7 set is the value byte of its lower seven bits. -/
theorem paramValueByte_ofNat {b : Byte} (h : 2 ^ 7 ≤ b.toNat) : paramValueByte (BitVec.ofNat 7 b.toNat) = b := by
  refine BitVec.eq_of_toNat_eq ?_
  rw [paramValueByte_toNat, BitVec.toNat_ofNat]
  omega

/-- R125: a byte with bit 7 clear is the tag byte of its lower seven bits. -/
theorem paramTagByte_ofNat {b : Byte} (h : ¬2 ^ 7 ≤ b.toNat) : paramTagByte (BitVec.ofNat 7 b.toNat) = b := by
  refine BitVec.eq_of_toNat_eq ?_
  rw [paramTagByte_toNat, BitVec.toNat_ofNat]
  omega

theorem decodeWtx_readsExactly (p : Producer) (bytes : List Byte) :
    ReadsExactly (.wtx p) [] bytes (decodeWtx p bytes) := by
  cases bytes with
  | nil => exact readsExactly_reject _
  | cons b rest =>
    refine readsExactly_cons ?_
    cases p with
    | txi =>
      dsimp only [decodeWtx]
      split_ifs with hack
      · exact readsExactly_instr rfl rfl (by rw [hack]; rfl)
      · exact readsExactly_reject _
    | sendParam =>
      dsimp only [decodeWtx]
      split_ifs with hvalue
      · exact readsExactly_instr rfl rfl (by rw [encode, paramValueByte_ofNat hvalue])
      · exact readsExactly_instr rfl rfl (by rw [encode, paramTagByte_ofNat hvalue])
    | sendByte =>
      dsimp only [decodeWtx]
      split_ifs with hend
      · exact readsExactly_instr rfl rfl (by rw [hend]; rfl)
      · exact readsExactly_instr (bne_iff_ne.mpr hend) rfl rfl

/-! ## The encoding of an instruction is read back -/

theorem decodeWrx_invalidMarker (h : isInvalidMarker l = true) (rest : List Byte) :
    decodeWrx (l :: rest) = .instr (.rxInvalidMarker l) rest := by
  obtain ⟨hl, hcode, hreset⟩ := isInvalidMarker_iff.mp h
  rw [decodeWrx_of_ne_reset hreset, decodeLogical_invalidMarker hcode hl]

theorem decodeWrx_payload (h : isPayload l = true) (rest : List Byte) :
    decodeWrx (l :: rest) = .instr (.rxPayload l) rest := by
  have hl := isPayload_iff.mp h
  rw [decodeWrx_of_ne_reset (ne_of_printable hl), decodeLogical_payload hl]

theorem decodeWtx_paramValue (g : BitVec 7) (rest : List Byte) :
    decodeWtx .sendParam (paramValueByte g :: rest) = .instr (.txParamValue g) rest := by
  have hg : BitVec.ofNat 7 (2 ^ 7 + g.toNat) = g := by bv_omega
  simp only [decodeWtx, paramValueByte_toNat, Nat.le_add_right, if_true, hg]

theorem decodeWtx_paramTag (tag : BitVec 7) (rest : List Byte) :
    decodeWtx .sendParam (paramTagByte tag :: rest) = .instr (.txParamTag tag) rest := by
  have htag : ¬2 ^ 7 ≤ tag.toNat := Nat.not_le.mpr tag.isLt
  simp only [decodeWtx, paramTagByte_toNat, htag, if_false, BitVec.ofNat_toNat, BitVec.setWidth_eq]

theorem decodeWtx_raw {b : Byte} (h : b ≠ Config.codeStatusEnd) (rest : List Byte) :
    decodeWtx .sendByte (b :: rest) = .instr (.txRaw b) rest := by
  simp only [decodeWtx, h, if_false]

/-- Settles O5: an instruction's bytes select its row, and each operand's bytes are read back. -/
theorem decodeInvertsEncode : Obligations.DecodeInvertsEncode := by
  intro i rest hwf
  cases i with
  | sendParam tag value => exact takeF64_f64Bytes value rest fun value => .instr (.sendParam tag value)
  | setPulseFrequency f => exact takeU16_u16Bytes f rest fun f => .instr (.setPulseFrequency f)
  | startRaster addr len =>
    calc decodeOp (encode (.startRaster addr len) ++ rest)
      _ = takeU16 (u16Bytes len ++ rest) fun len => .instr (.startRaster addr len) :=
        takeU16_u16Bytes addr (u16Bytes len ++ rest) fun addr more => takeU16 more fun len => .instr (.startRaster addr len)
      _ = .instr (.startRaster addr len) rest := takeU16_u16Bytes len rest _
  | setAir v => exact takeBool_boolByte v rest fun v => .instr (.setAir v)
  | setAux1 v => exact takeBool_boolByte v rest fun v => .instr (.setAux1 v)
  | setAux2 v => exact takeBool_boolByte v rest fun v => .instr (.setAux2 v)
  | rbPush r b => exact takeRing_ringByte r (b :: rest) fun r more => takeByte more fun b => .instr (.rbPush r b)
  | rbPop r => exact takeRing_ringByte r rest fun r => .instr (.rbPop r)
  | rbIsEmpty r => exact takeRing_ringByte r rest fun r => .instr (.rbIsEmpty r)
  | rbIsFull r => exact takeRing_ringByte r rest fun r => .instr (.rbIsFull r)
  | rbLen r => exact takeRing_ringByte r rest fun r => .instr (.rbLen r)
  | inputSet line v =>
    calc decodeEv (encode (.inputSet line v) ++ rest)
      _ = takeBool (boolByte v :: rest) fun v => .instr (.inputSet line v) :=
        takeLine_lineByte line _ fun line more => takeBool more fun v => .instr (.inputSet line v)
      _ = .instr (.inputSet line v) rest := takeBool_boolByte v rest _
  | memWrite addr v =>
    exact takeU16_u16Bytes addr (v :: rest) fun addr more => takeByte more fun v => .instr (.memWrite addr v)
  | rxInvalidMarker l => exact decodeWrx_invalidMarker hwf rest
  | rxPayload l => exact decodeWrx_payload hwf rest
  | txParamValue g => exact decodeWtx_paramValue g rest
  | txParamTag tag => exact decodeWtx_paramTag tag rest
  | txRaw b => exact decodeWtx_raw (bne_iff_ne.mp hwf) rest
  | _ => rfl

/-- Settles O6: the decoder of every domain reads exactly. -/
theorem encodeInvertsDecode : Obligations.EncodeInvertsDecode := by
  intro f bytes rest i h
  cases f with
  | op => exact decodeOp_readsExactly bytes i rest h
  | rb => exact decodeRb_readsExactly bytes i rest h
  | ev => exact decodeEv_readsExactly bytes i rest h
  | wrx => exact decodeWrx_readsExactly bytes i rest h
  | wtx p => exact decodeWtx_readsExactly p bytes i rest h

/-! ## The other statements of the family about single steps and words -/

/-- Settles O2, by the line that stands first in the script. -/
theorem stepWithoutInstruction : Obligations.StepWithoutInstruction := by
  refine ⟨fun s rest hscript => ?_, fun s f bytes rest e hlive hscript hdecode => ?_, fun s hlive hscript => ?_⟩
  · simp only [step, fetch, hscript]
  · simp only [step, fetch, hscript, hdecode]
    exact guardLive_of_live (s := s.withScript rest) hlive _
  · simp only [step, fetch, hscript]
    exact guardLive_of_live hlive _

/-- Settles O3: the accepted words are encodings (O5); the two rejected ones are evaluated. -/
theorem decodeSampleWords : Obligations.DecodeSampleWords :=
  ⟨decodeInvertsEncode (.sendByte 0x3F) [] rfl, decodeInvertsEncode (.startRaster 0x0100 0x0003) [] rfl,
    decodeInvertsEncode (.readLimit 5) [] rfl, decodeInvertsEncode (.rbPush .tx 0x41) [] rfl, rfl,
    decodeInvertsEncode (.rxArrive 0x41) [] rfl, decodeInvertsEncode .evTick [] rfl, decodeInvertsEncode .rxReset [] rfl,
    decodeInvertsEncode (.rxInvalidMarker 0x1F) [] rfl, decodeInvertsEncode (.txParamValue 0x5C) [] rfl, rfl⟩

/-- Settles O4: the four codes come first, then the printable range decides, in the decoder and in the handler. -/
theorem inboundClassesByPriority : Obligations.InboundClassesByPriority := by
  intro l s
  refine ⟨rxDispatch_rx_of_subprintable, fun hstop hresume hstatus hsuper hl => ?_, ?_, ?_, ?_, ?_,
    fun hstop hresume hstatus hsuper hl => ?_, decodeLogical_payload⟩
  · exact rxDispatch_invalidMarker ⟨hstop, hresume, hstatus, hsuper⟩ hl
  · rintro rfl; rfl
  · rintro rfl; rfl
  · rintro rfl; rfl
  · rintro rfl; rfl
  · exact decodeLogical_invalidMarker ⟨hstop, hresume, hstatus, hsuper⟩ hl

end Sys2Proof.Proofs
end

section
/-! PROOFS. 30_encoding.md R120, R122: what an issued send enqueues (O26) and how `SEND_PARAM` and MAIN's continuation
queue the bytes of a frame (O33), by induction on the bytes still in the slot. -/

namespace Sys2Proof.Proofs

open Sys2Proof Sys2Proof.Machine

variable {s : State} {slot : SlotId} {b : Byte} {bytes : List Byte} {rest : List Input}

/-! ## A push with room -/

section Ring

variable {C : Nat} {r : RingBuf C}

/-- R157: the next index is the successor, or it has wrapped to 0. -/
theorem ringNext_toNat_cases {i : Byte} (hC : C ≤ 256) (hi : i.toNat < C) :
    (ringNext C i).toNat = i.toNat + 1 ∨ ((ringNext C i).toNat = 0 ∧ i.toNat + 1 = C) := by
  rw [ringNext_toNat (Nat.zero_lt_of_lt hi) hC]
  rcases Nat.lt_or_ge (i.toNat + 1) C with h | h
  · exact .inl (Nat.mod_eq_of_lt h)
  · have hwrap : i.toNat + 1 = C := Nat.le_antisymm hi h
    exact .inr ⟨by rw [hwrap, Nat.mod_self], hwrap⟩

/-- R150, R154: while fewer than `C - 1` items are held, a push is accepted and lengthens the ring by one. -/
theorem ringNext_head_length (hC : C ≤ 256) (hr : r.valid) (hroom : r.length + 1 < C) :
    r.isFull = false ∧ ({ r with head := ringNext C r.head } : RingBuf C).length = r.length + 1 := by
  have hnext := ringNext_toNat_cases hC hr.1
  have hlength := ringLength_cases hr
  have hlength' := ringLength_cases (r := { r with head := ringNext C r.head }) ⟨ringNext_lt (by omega) hC _, hr.2⟩
  obtain ⟨hhead, htail⟩ := hr
  simp only [] at hlength'
  constructor
  · rw [RingBuf.isFull, beq_eq_false_iff_ne, Ne, ← BitVec.toNat_inj]
    omega
  · omega

/-- R157: among the indices from the tail on, only the one after the last item is the head's. -/
theorem ringIndex_eq_head_iff (hr : r.valid) {k : Nat} (hk : k ≤ r.length) :
    (r.tail.toNat + k) % C = r.head.toNat ↔ k = r.length := by
  have hlength := ringLength_cases hr
  obtain ⟨hhead, htail⟩ := hr
  rcases Nat.lt_or_ge (r.tail.toNat + k) C with h | h
  · rw [Nat.mod_eq_of_lt h]
    omega
  · rw [Nat.mod_eq_sub_mod h, Nat.mod_eq_of_lt (by omega)]
    omega

/-- R150: writing the head's slot leaves the items alone and puts the new one behind them. -/
theorem slotPut_head_items (hC : C ≤ 256) (hr : r.valid) (b : Byte) {k : Nat} (hk : k ≤ r.length) :
    (r.slotPut r.head b).slotAt (BitVec.ofNat 8 ((r.tail.toNat + k) % C)) =
      if k = r.length then b else r.slotAt (BitVec.ofNat 8 ((r.tail.toNat + k) % C)) := by
  have hindex : BitVec.ofNat 8 ((r.tail.toNat + k) % C) = r.head ↔ k = r.length := by
    rw [← ringIndex_eq_head_iff hr hk, ← BitVec.toNat_inj, BitVec.toNat_ofNat,
      Nat.mod_eq_of_lt (Nat.lt_of_lt_of_le (Nat.mod_lt _ (Nat.zero_lt_of_lt hr.1)) hC)]
  split_ifs with h
  · rw [hindex.mpr h, RingBuf.slotAt_slotPut_same r r.head b hr.1]
  · exact RingBuf.slotAt_slotPut_other r b fun he => h (hindex.mp he)

/-- R150, R156: a push with room is accepted, and the pushed item stands behind the others. -/
theorem ringPush_of_room (hC : C ≤ 256) (hr : r.valid) (hroom : r.contents.length + 1 < C) (b : Byte) :
    ∃ q, r.push b = some q ∧ q.valid ∧ q.tail = r.tail ∧ q.contents = r.contents ++ [b] := by
  rw [ringContents_length] at hroom
  obtain ⟨hfull, hlength⟩ := ringNext_head_length hC hr hroom
  have hpush := RingBuf.push_of_not_isFull b hfull
  refine ⟨_, hpush, push_valid hC hpush hr, rfl, ?_⟩
  calc RingBuf.contents { r.slotPut r.head b with head := ringNext C r.head }
    _ = (List.range (r.length + 1)).map fun k =>
          (r.slotPut r.head b).slotAt (BitVec.ofNat 8 ((r.tail.toNat + k) % C)) := by rw [← hlength]; rfl
    _ = r.contents ++ [b] := by
      rw [List.range_succ, List.map_append, List.map_singleton, slotPut_head_items hC hr b (Nat.le_refl _), if_pos rfl]
      refine congrArg (· ++ [b]) (List.map_congr_left fun k hk => ?_)
      have hlt := List.mem_range.mp hk
      rw [slotPut_head_items hC hr b hlt.le, if_neg hlt.ne]

end Ring

/-! ## Admission and the first byte of a send -/

theorem admissionSlot_of_admits (h : s.admits slot) : admissionSlot s = some slot := by
  cases slot with
  | top => exact admissionSlot_top.mpr h.2
  | nested => exact admissionSlot_nested.mpr h.2

/-- R191: an admitted operation runs in its slot. -/
theorem admitOp_of_admits (h : s.admits slot) (k : SlotId → Result) : admitOp s k = k slot := by
  rw [admitOp, guardLive_of_live h.1, admissionSlot_of_admits h]

/-- R190: the slot of an admitted operation is free: it has no bytes to send. -/
theorem setSlot_nil_of_admits (h : s.admits slot) : s.setSlot slot [] = s := by
  obtain ⟨_, h⟩ := h
  cases slot with
  | top => rw [State.setSlot, MainState.setSlot_top, Mode.ofQueue_nil, ← h]
  | nested => rw [State.setSlot, MainState.setSlot_nested, Nested.ofQueue_nil, ← h.2.2]

theorem isFull_of_push {q : RingBuf Config.txCap} (h : s.tx.push b = some q) : s.tx.isFull = false := by
  rcases s.tx.push_cases b with ⟨_, hpush⟩ | ⟨hfull, _⟩
  · simp [hpush] at h
  · exact hfull

/-- R195: a byte that is pushed arms the source, and the rest stays in the slot. -/
theorem sendStep_of_push {q : RingBuf Config.txCap} (h : s.tx.push b = some q) :
    sendStep slot b bytes s = ({ s with tx := q, txie := true } : State).setSlot slot bytes := by
  simp only [sendStep, h]

/-- R193, R196: an issued send with room enqueues its first byte. -/
theorem startSending_of_push {q : RingBuf Config.txCap} (h : s.tx.push b = some q) :
    startSending slot b bytes s = ({ s with tx := q, txie := true } : State).setSlot slot bytes := by
  have hroom := isFull_of_push h
  rw [startSending, if_neg (by simp [hroom]), sendStep_setSlot hroom, sendStep_of_push h]

/-- R193, R194: an issued send waits with all its bytes while the TX ring is full. -/
theorem startSending_of_full (h : s.tx.push b = none) : startSending slot b bytes s = s.setSlot slot (b :: bytes) := by
  rcases s.tx.push_cases b with ⟨hfull, _⟩ | ⟨_, hpush⟩
  · rw [startSending, if_pos hfull]
  · simp [hpush] at h

theorem sendOp_of_push {q : RingBuf Config.txCap} (hs : s.admits slot) (h : s.tx.push b = some q) :
    sendOp b s = .next { s with tx := q, txie := true } := by
  have hfree : ({ s with tx := q, txie := true } : State).admits slot := hs
  rw [sendOp, admitOp_of_admits hs, startSending_of_push h, setSlot_nil_of_admits hfree]

theorem sendOp_of_full (hs : s.admits slot) (h : s.tx.push b = none) : sendOp b s = .next (s.setSlot slot [b]) := by
  rw [sendOp, admitOp_of_admits hs, startSending_of_full h]

/-- R120: the outbound classes that MAIN creates are sends of their byte. -/
theorem exec_outbound {raw : Byte} {g tag : BitVec 7} {i : Instr}
    (h : (i, b) ∈ [(Instr.txRaw raw, raw), (.txStatusEnd, Config.codeStatusEnd), (.txParamValue g, paramValueByte g),
      (.txParamTag tag, paramTagByte tag)]) : exec i s = sendOp b s := by
  simp only [List.mem_cons, Prod.mk.injEq, List.not_mem_nil, or_false] at h
  rcases h with ⟨rfl, rfl⟩ | ⟨rfl, rfl⟩ | ⟨rfl, rfl⟩ | ⟨rfl, rfl⟩ <;> rfl

/-- Settles O26: each of the four classes is the send of its byte. -/
theorem outboundClassesEnqueue : Obligations.OutboundClassesEnqueue := by
  intro s slot raw g tag i b hs hi
  rw [exec_outbound hi]
  refine ⟨fun q => sendOp_of_push hs, fun hfull htop => ?_, fun hfull hnested => ?_⟩
  · subst htop
    exact sendOp_of_full hs hfull
  · subst hnested
    exact sendOp_of_full hs hfull

/-! ## The frame of `SEND_PARAM` -/

/-- `s` with the TX ring `q`, an armed source, the bytes `bytes` still to be sent from the top slot, and the script `rest`. -/
def sendingFrom (s : State) (q : RingBuf Config.txCap) (bytes : List Byte) (rest : List Input) : State :=
  ({ s with tx := q, txie := true, script := rest } : State).setSlot .top bytes

theorem sendingFrom_nil (hs : s.admits .top) (q : RingBuf Config.txCap) (rest : List Input) :
    sendingFrom s q [] rest = { s with tx := q, txie := true, script := rest } :=
  setSlot_nil_of_admits (s := { s with tx := q, txie := true, script := rest }) hs

/-- R196: the issue of `SEND_PARAM` in the top slot, with room for the first byte of its frame. -/
theorem step_sendParam {tag : Byte} {value : F64} {q : RingBuf Config.txCap} (hs : s.admits .top)
    (htag : tag.getLsbD 7 = false) (hrange : paramInRange value = true) (hpush : s.tx.push (paramFirst value) = some q)
    (hscript : s.script = (Instr.sendParam tag value).input :: rest) :
    step s = .next (sendingFrom s q (paramRest tag value) rest) := by
  have hdecode := decodeInvertsEncode (.sendParam tag value) [] rfl
  rw [List.append_nil] at hdecode
  have hadmits : (s.withScript rest).admits .top := hs
  have hpush' : (s.withScript rest).tx.push (paramFirst value) = some q := hpush
  rw [step_of_input hscript hdecode rfl, exec, execSendParam, admitOp_of_admits hadmits, htag, hrange,
    startSending_of_push hpush']
  rfl

/-- R194: `RUN MAIN` while the top slot has a byte to send and there is room for it. -/
theorem step_runMain_sending {r q : RingBuf Config.txCap} (hlive : s.live) (hpush : r.push b = some q) :
    step (sendingFrom s r (b :: bytes) (.runMain :: rest)) = .next (sendingFrom s q bytes rest) := by
  have hstep := stepWithoutInstruction.1 (sendingFrom s r (b :: bytes) (.runMain :: rest)) rest rfl
  have hlive' : (sendingFrom s r (b :: bytes) rest).live := hlive
  have hpush' : (sendingFrom s r (b :: bytes) rest).tx.push b = some q := hpush
  calc step (sendingFrom s r (b :: bytes) (.runMain :: rest))
    _ = mainStep (sendingFrom s r (b :: bytes) rest) := hstep
    _ = resumeSending .top b bytes (sendingFrom s r (b :: bytes) rest) := guardLive_of_live hlive' _
    _ = .next (sendStep .top b bytes (sendingFrom s r (b :: bytes) rest)) :=
      resumeSending_next.mpr ⟨isFull_of_push hpush', rfl⟩
    _ = .next (sendingFrom s q bytes rest) := by rw [sendStep_of_push hpush']; rfl

/-- R194: as many steps of MAIN as bytes wait in the top slot queue them in order, by induction on those bytes. -/
theorem runMain_queues_bytes (hlive : s.live) (bytes : List Byte) (r : RingBuf Config.txCap) (hr : r.valid)
    (hroom : r.contents.length + bytes.length < Config.txCap) :
    ∃ q : RingBuf Config.txCap, q.contents = r.contents ++ bytes ∧ q.tail = r.tail ∧
      stepsRun bytes.length (sendingFrom s r bytes (List.replicate bytes.length .runMain ++ rest)) =
        .next (sendingFrom s q [] rest) := by
  induction bytes generalizing r with
  | nil => exact ⟨r, (List.append_nil _).symm, rfl, rfl⟩
  | cons b bytes ih =>
    rw [List.length_cons] at hroom
    obtain ⟨q, hpush, hq, htail, hcontents⟩ := ringPush_of_room (by decide) hr (by omega) b
    have hroom' : q.contents.length + bytes.length < Config.txCap := by
      rw [hcontents, List.length_append, List.length_singleton]
      omega
    obtain ⟨q', hcontents', htail', hrun⟩ := ih q hq hroom'
    refine ⟨q', ?_, htail'.trans htail, ?_⟩
    · rw [hcontents', hcontents, List.append_assoc, List.singleton_append]
    · rw [List.length_cons, List.replicate_succ, List.cons_append, stepsRun_of_step (step_runMain_sending hlive hpush)]
      exact hrun

/-- Settles O33: the issue enqueues the first byte of the frame (R196) and MAIN queues the other four (R194). -/
theorem sendParamQueuesFrame : Obligations.SendParamQueuesFrame := by
  intro s rest tag value hs hvalid hheld htag hrange
  have hroom : s.tx.contents.length + 5 < Config.txCap := Nat.lt_of_le_of_lt (Nat.add_le_add_right hheld 5) (by decide)
  obtain ⟨r, hpush, hr, htail, hcontents⟩ := ringPush_of_room (by decide) hvalid (by omega) (paramFirst value)
  have hroom' : r.contents.length + (paramRest tag value).length < Config.txCap := by
    rw [hcontents, List.length_append, List.length_singleton, show (paramRest tag value).length = 4 from rfl]
    omega
  obtain ⟨q, hcontents', htail', hrun⟩ := runMain_queues_bytes (rest := rest) hs.1 (paramRest tag value) r hr hroom'
  refine ⟨q, ?_, htail'.trans htail, ?_⟩
  · rw [hcontents', hcontents, List.append_assoc, List.singleton_append]
  · have hadmits : (s.withScript ((Instr.sendParam tag value).input :: (List.replicate 4 .runMain ++ rest))).admits .top :=
      hs
    rw [List.cons_append, stepsRun_of_step (step_sendParam hadmits htag hrange hpush rfl), ← sendingFrom_nil hs q rest]
    exact hrun

end Sys2Proof.Proofs
end

section
/-! PROOFS. 40_ringbuffer.md: a push writes the head's side of a ring alone and a pop the tail's (O12, O13); what they do to
the items held (O14) gives the first-in-first-out law over a sequence of commands (O15) by induction on the sequence; and
the five commands as instructions of their own (O16). -/

namespace Sys2Proof.Proofs

open Sys2Proof Sys2Proof.Machine

section Ring

variable {C : Nat} {r q : RingBuf C} {b : Byte}

/-! ## What a push and a pop write -/

theorem ringPush_eq_none_iff : r.push b = none ↔ r.isFull = true := by
  rcases r.push_cases b with ⟨hfull, hpush⟩ | ⟨hfull, hpush⟩ <;> simp [hfull, hpush]

theorem ringPop_eq_none_iff : r.pop = none ↔ r.isEmpty = true := by
  rcases r.pop_cases with ⟨hempty, hpop⟩ | ⟨hempty, hpop⟩ <;> simp [hempty, hpop]

/-- R153, R157: the full test on the index values. -/
theorem ringIsFull_iff_toNat (hC : C ≤ 256) (hr : r.valid) :
    r.isFull = true ↔ (r.head.toNat + 1) % C = r.tail.toNat := by
  rw [RingBuf.isFull, beq_iff_eq, ← BitVec.toNat_inj, ringNext_toNat (Nat.zero_lt_of_lt hr.1) hC]

/-- R151: the item a pop answers stood in the tail's slot of a ring that was not empty. -/
theorem ringPop_item (h : r.pop = some (b, q)) : r.isEmpty = false ∧ b = r.slotAt r.tail := by
  rcases r.pop_cases with ⟨_, hpop⟩ | ⟨hempty, hpop⟩
  · simp [hpop] at h
  · rw [hpop, Option.some.injEq, Prod.mk.injEq] at h
    exact ⟨hempty, h.1.symm⟩

/-- Settles O12, from the two outcomes of a push and the slot rules. -/
theorem ringPushWritesHead : Obligations.RingPushWritesHead := by
  intro C r i b hC hr
  have hC' : C ≤ 256 := by omega
  refine ⟨rfl, ringPush_eq_none_iff.trans (ringIsFull_iff_toNat hC' hr), fun q hpush => ?_⟩
  rw [push_eq_some hpush]
  exact ⟨ringNext_toNat (Nat.zero_lt_of_lt hr.1) hC' r.head, rfl, RingBuf.slotAt_slotPut_same r r.head b hr.1,
    fun j hj => RingBuf.slotAt_slotPut_other r b hj⟩

/-- Settles O13, from the two outcomes of a pop. -/
theorem ringPopReadsTail : Obligations.RingPopReadsTail := by
  intro C r i hC hr
  refine ⟨rfl, ringPop_eq_none_iff.trans beq_iff_eq, fun b q hpop => ?_⟩
  obtain ⟨_, hitem⟩ := ringPop_item hpop
  rw [pop_eq_some hpop]
  exact ⟨hitem, ringNext_toNat (Nat.zero_lt_of_lt hr.2) (by omega) r.tail, rfl, rfl⟩

/-! ## The items held -/

theorem ringLength_lt (hr : r.valid) : r.length < C := by
  have hlength := ringLength_cases hr
  obtain ⟨hhead, _⟩ := hr
  omega

/-- R154: `RB_LEN` fits its byte. -/
theorem ringLen_toNat (hC : C ≤ 256) (hr : r.valid) : r.len.toNat = r.length := by
  rw [RingBuf.len, BitVec.toNat_ofNat, Nat.mod_eq_of_lt (Nat.lt_of_lt_of_le (ringLength_lt hr) hC)]

/-- R153, R155: a full ring holds one item less than it has slots. -/
theorem ringIsFull_iff_length (hC : C ≤ 256) (hr : r.valid) : r.isFull = true ↔ r.length = C - 1 := by
  have hnext := ringNext_toNat_cases hC hr.1
  have hnext_lt := ringNext_lt (Nat.zero_lt_of_lt hr.1) hC r.head
  have hlength := ringLength_cases hr
  obtain ⟨hhead, htail⟩ := hr
  rw [RingBuf.isFull, beq_iff_eq, ← BitVec.toNat_inj]
  omega

theorem ringContents_length_le (hr : r.valid) : r.contents.length ≤ C - 1 := by
  rw [ringContents_length]
  exact Nat.le_sub_one_of_lt (ringLength_lt hr)

/-- R150, R156: an accepted push found room, so its item stands behind the others. -/
theorem ringContents_of_push (hC : C ≤ 256) (hr : r.valid) (h : r.push b = some q) : q.contents = r.contents ++ [b] := by
  have hnotfull : r.length ≠ C - 1 := fun hlength => by
    simp [ringPush_eq_none_iff.mpr ((ringIsFull_iff_length hC hr).mpr hlength)] at h
  have hroom : r.contents.length + 1 < C := by
    have := ringLength_lt hr
    rw [ringContents_length]
    omega
  obtain ⟨q', hpush, _, _, hcontents⟩ := ringPush_of_room hC hr hroom b
  rwa [Option.some.inj (h.symm.trans hpush)]

/-- R151, R156: a pop takes the oldest item. -/
theorem ringContents_of_pop (hC : C ≤ 256) (hr : r.valid) (h : r.pop = some (b, q)) : r.contents = b :: q.contents := by
  obtain ⟨hnonempty, hitem⟩ := ringPop_item h
  rw [ringContents_eq_cons hC hr hnonempty, pop_eq_some h, hitem]

/-- Settles O14. -/
theorem ringHoldsItems : Obligations.RingHoldsItems := by
  intro C r _ hC hr
  have hC' : C ≤ 256 := by omega
  have hlen : r.contents.length = r.len.toNat := by rw [ringContents_length, ringLen_toNat hC' hr]
  refine ⟨hlen, hlen ▸ ringContents_length_le hr, ringIsEmpty_iff_contents hr, ?_, fun b q hpush => ?_, fun b q hpop => ?_⟩
  · rw [ringContents_length]
    exact ringIsFull_iff_length hC' hr
  · exact ⟨push_valid hC' hpush hr, ringContents_of_push hC' hr hpush⟩
  · exact ⟨pop_valid hC' hpop hr, ringContents_of_pop hC' hr hpop⟩

/-! ## A sequence of commands -/

/-- R156: the indices stay legal, and the bytes that left and those still held are the bytes held at first and those
accepted. A refused command changes nothing; an accepted push or a pop moves one byte from one side to the other. -/
theorem ringRun_fifo (hC : C ≤ 256) (cmds : List RingCmd) (hr : r.valid) :
    (ringRun cmds r).2.2.valid ∧
    (ringRun cmds r).2.1 ++ (ringRun cmds r).2.2.contents = r.contents ++ (ringRun cmds r).1 := by
  induction cmds generalizing r with
  | nil => exact ⟨hr, (List.append_nil _).symm⟩
  | cons cmd cmds ih =>
    cases cmd with
    | push b =>
      cases hpush : r.push b with
      | none => simpa only [ringRun, hpush] using ih hr
      | some q =>
        obtain ⟨hvalid, hfifo⟩ := ih (push_valid hC hpush hr)
        simp only [ringRun, hpush]
        refine ⟨hvalid, ?_⟩
        rw [hfifo, ringContents_of_push hC hr hpush, List.append_assoc, List.singleton_append]
    | pop =>
      cases hpop : r.pop with
      | none => simpa only [ringRun, hpop] using ih hr
      | some item =>
        obtain ⟨b, q⟩ := item
        obtain ⟨hvalid, hfifo⟩ := ih (pop_valid hC hpop hr)
        simp only [ringRun, hpop]
        refine ⟨hvalid, ?_⟩
        rw [List.cons_append, hfifo, ringContents_of_pop hC hr hpop, List.cons_append]

/-- Settles O15: the law of `ringRun_fifo`, and the bound from the legal indices it keeps. -/
theorem ringIsFifo : Obligations.RingIsFifo := by
  intro C r cmds _ hC hr
  obtain ⟨hvalid, hfifo⟩ := ringRun_fifo (by omega) cmds hr
  exact ⟨hfifo, ringContents_length_le hvalid⟩

end Ring

/-! ## The commands as instructions -/

section Commands

variable {s : State}

/-- A step inside a transition, run alone (log 4), answers a next state in a live state. -/
theorem unitStep_of_live (h : s.live) (body : State → State) : unitStep body s = .next (body s) :=
  unitStep_next.mpr ⟨h, rfl⟩

/-- R150 as an instruction of its own. -/
theorem exec_rbPush (h : s.live) (i : RingId) (b : Byte) : exec (.rbPush i b) s = .next (pushCommand i b s) :=
  unitStep_of_live h _

/-- R151 as an instruction of its own. -/
theorem exec_rbPop (h : s.live) (i : RingId) : exec (.rbPop i) s = .next (popCommand i s) :=
  unitStep_of_live h _

/-- R152 to R154: a ring command that only answers writes the result field alone (log 5). -/
theorem ringAnswer_of_live (h : s.live) (f : State → RingResult) :
    unitStep (fun t => t.ringResult (f t)) s = .next { s with rbResult := some (f s) } :=
  unitStep_of_live h _

/-- Settles O16: a push and a pop by their outcome on either instance; the other three commands only answer. -/
theorem ringCommandsComplete : Obligations.RingCommandsComplete := by
  intro s b h
  refine ⟨fun q hpush => ?_, fun hfull => ?_, fun q hpush => ?_, fun hfull => ?_,
    fun c q hpop => ?_, fun hnone => ?_, fun c q hpop => ?_, fun hnone => ?_,
    ringAnswer_of_live h fun t => .flag t.rx.isEmpty, ringAnswer_of_live h fun t => .flag t.tx.isEmpty,
    ringAnswer_of_live h fun t => .flag t.rx.isFull, ringAnswer_of_live h fun t => .flag t.tx.isFull,
    ringAnswer_of_live h fun t => .len t.rx.len, ringAnswer_of_live h fun t => .len t.tx.len⟩
  · simp only [exec_rbPush h, pushCommand, hpush, State.ringResult]
  · simp only [exec_rbPush h, pushCommand, hfull, State.ringResult]
  · simp only [exec_rbPush h, pushCommand, hpush, State.ringResult]
  · simp only [exec_rbPush h, pushCommand, hfull, State.ringResult]
  · simp only [exec_rbPop h, popCommand, hpop, State.ringResult]
  · simp only [exec_rbPop h, popCommand, hnone, State.ringResult]
  · simp only [exec_rbPop h, popCommand, hpop, State.ringResult]
  · simp only [exec_rbPop h, popCommand, hnone, State.ringResult]

end Commands

end Sys2Proof.Proofs
end

section
/-! PROOFS. 41_serial_rx.md: the receive handler. `exec_evRx` says once that an activation is its entry (R170, R171)
followed by the classifier `rxByte`, and there is one rule per case of the classifier and of the dispatcher; the statements
about one activation (O17 to O22), about the inbound classes run alone (O23) and about scripts (O24) are read off these. -/

namespace Sys2Proof.Proofs

open Sys2Proof Sys2Proof.Machine

variable {s : State} {b l code : Byte} {k : CtrlKind} {q : RingBuf Config.rxCap} {rest : List Input}

/-! ## The cases of the classifier, R172 to R174 -/

theorem rxByte_reset (s : State) : rxByte Config.codeReset s = rxProtocolReset s :=
  if_pos rfl

theorem rxByte_first (hb : b ≠ Config.codeReset) (hfirst : s.dup.expectFirst = true) : rxByte b s = rxHold b s := by
  rw [rxByte, if_neg hb, if_pos hfirst]

/-- R174, D9: a second copy that differs. -/
theorem rxByte_mismatch (hb : b ≠ Config.codeReset) (hsecond : s.dup.expectFirst = false) (hprev : b ≠ s.dup.prev) :
    rxByte b s = (rxExpectFirst s).requestStop .transmissionError := by
  rw [rxByte, if_neg hb, if_neg (ne_true_of_eq_false hsecond), if_neg hprev]

/-- R174: a second copy that agrees is a logical byte. -/
theorem rxByte_second (hb : b ≠ Config.codeReset) (hsecond : s.dup.expectFirst = false) (hprev : s.dup.prev = b) :
    rxByte b s = rxDispatch b (rxExpectFirst s) := by
  rw [rxByte, if_neg hb, if_neg (ne_true_of_eq_false hsecond), if_pos hprev.symm]

/-! ## The cases of the dispatcher, R175 to R180 -/

/-- R175 to R178: the four inbound control codes and their handlers. -/
def controlCodes : List (Byte × CtrlKind) :=
  [(Config.codeStop, .stop), (Config.codeResume, .resume), (Config.codeStatus, .status),
    (Config.codeSuperstatus, .superstatus)]

theorem controlCode_cases (h : (code, k) ∈ controlCodes) :
    (code = Config.codeStop ∧ k = .stop) ∨ (code = Config.codeResume ∧ k = .resume) ∨
    (code = Config.codeStatus ∧ k = .status) ∨ (code = Config.codeSuperstatus ∧ k = .superstatus) := by
  simpa [controlCodes] using h

theorem controlCode_ne_reset (h : (code, k) ∈ controlCodes) : code ≠ Config.codeReset := by
  rcases controlCode_cases h with ⟨rfl, _⟩ | ⟨rfl, _⟩ | ⟨rfl, _⟩ | ⟨rfl, _⟩ <;> decide

theorem rxDispatch_control (h : (code, k) ∈ controlCodes) : rxDispatch code s = rxControl k s := by
  rcases controlCode_cases h with ⟨rfl, rfl⟩ | ⟨rfl, rfl⟩ | ⟨rfl, rfl⟩ | ⟨rfl, rfl⟩ <;> rfl

/-- R179. The class is that of R114, which leaves out the reset code. -/
theorem rxDispatch_of_isInvalidMarker (h : isInvalidMarker l = true) : rxDispatch l s = rxInvalid s := by
  obtain ⟨hl, hcode, _⟩ := isInvalidMarker_iff.mp h
  exact rxDispatch_invalidMarker hcode hl

theorem isInvalidMarker_ne_reset (h : isInvalidMarker l = true) : l ≠ Config.codeReset := by
  obtain ⟨_, _, hreset⟩ := isInvalidMarker_iff.mp h
  exact hreset

theorem rxDispatch_printable (h : Config.printableMin ≤ l.toNat) : rxDispatch l s = rxDeliver l s := by
  obtain ⟨hstop, hresume, hstatus, hsuper⟩ := noInboundCode_of_printable h
  simp only [rxDispatch, hstop, hresume, hstatus, hsuper, Nat.not_lt.mpr h, if_false]

theorem rxDeliver_of_push (h : s.rx.push l = some q) : rxDeliver l s = { s with rx := q } := by
  rw [rxDeliver, h]

/-- R180, D11: a byte that finds the RX ring full is dropped. -/
theorem rxDeliver_of_full (h : s.rx.push l = none) : rxDeliver l s = s.requestStop .rxBufferOverflow := by
  rw [rxDeliver, h]

/-! ## One activation -/

/-- R170, R171, R181: the entry of the handler, then the classifier. -/
theorem rxiBody_eq (s : State) : rxiBody s = rxByte s.uart.rxData s.afterRxEntry := by
  rw [rxiBody, State.afterRxEntry]
  cases s.uart.rxOvr <;> rfl

/-- R282: an activation while a byte waits and interrupts are enabled. -/
theorem exec_evRx (hlive : s.live) (hgie : s.gie = true) (hfull : s.uart.rxFull = true) :
    exec .evRx s = .next (rxByte s.uart.rxData s.afterRxEntry) :=
  enterHandler_next.mpr ⟨hlive, by simp [State.rxiEnabled, hgie, hfull], (rxiBody_eq s).symm⟩

/-- R174: an activation that reads the second copy of a byte dispatches it. -/
theorem exec_evRx_second (hlive : s.live) (hgie : s.gie = true) (hfull : s.uart.rxFull = true)
    (hdata : s.uart.rxData ≠ Config.codeReset) (hsecond : s.dup.expectFirst = false)
    (hprev : s.dup.prev = s.uart.rxData) :
    exec .evRx s = .next (rxDispatch s.uart.rxData (rxExpectFirst s.afterRxEntry)) := by
  rw [exec_evRx hlive hgie hfull, rxByte_second (s := s.afterRxEntry) hdata hsecond hprev]

/-- Settles O17. -/
theorem evRxProtocolReset : Obligations.EvRxProtocolReset := by
  intro s hlive hgie hfull hdata
  rw [exec_evRx hlive hgie hfull, hdata, rxByte_reset]
  rfl

/-- Settles O18. -/
theorem evRxHoldsFirstCopy : Obligations.EvRxHoldsFirstCopy := by
  intro s hlive hgie hfull hdata hfirst
  rw [exec_evRx hlive hgie hfull, rxByte_first (s := s.afterRxEntry) hdata hfirst]
  rfl

/-- Settles O19. -/
theorem evRxMismatch : Obligations.EvRxMismatch := by
  intro s hlive hgie hfull hdata hsecond hprev
  rw [exec_evRx hlive hgie hfull, rxByte_mismatch (s := s.afterRxEntry) hdata hsecond hprev]
  rfl

/-- Settles O20: none of the four codes is the reset code, so the second copy is dispatched. -/
theorem evRxControlCodes : Obligations.EvRxControlCodes := by
  rintro s code k hlive hgie hfull rfl hsecond hprev hcode
  rw [exec_evRx_second hlive hgie hfull (controlCode_ne_reset hcode) hsecond hprev, rxDispatch_control hcode]
  rfl

/-- Settles O21: the class leaves the reset code out, so the second copy is dispatched. -/
theorem evRxInvalidMarker : Obligations.EvRxInvalidMarker := by
  intro s hlive hgie hfull hmarker hsecond hprev
  rw [exec_evRx_second hlive hgie hfull (isInvalidMarker_ne_reset hmarker) hsecond hprev,
    rxDispatch_of_isInvalidMarker hmarker]
  rfl

/-- Settles O22: the reset code is not printable (R117), so the second copy is delivered. -/
theorem evRxPayload : Obligations.EvRxPayload := by
  intro s hlive hgie hfull hprintable hsecond hprev
  rw [exec_evRx_second hlive hgie hfull (ne_of_printable hprintable) hsecond hprev, rxDispatch_printable hprintable]
  exact ⟨fun q hpush => congrArg _ (rxDeliver_of_push hpush), fun hnone => congrArg _ (rxDeliver_of_full hnone)⟩

/-! ## The inbound classes as instructions -/

theorem exec_rxInvalidMarker (hlive : s.live) (hl : isInvalidMarker l = true) :
    exec (.rxInvalidMarker l) s = .next (rxInvalid s) := by
  rw [exec, execRxInvalidMarker, guardLive_of_live hlive, if_pos hl]

theorem exec_rxPayload (hlive : s.live) (hl : Config.printableMin ≤ l.toNat) :
    exec (.rxPayload l) s = .next (rxDeliver l s) := by
  rw [exec, execRxPayload, guardLive_of_live hlive, if_pos (isPayload_iff.mpr hl)]

/-- Settles O23: each class is its rule's body run alone (log 4). -/
theorem receiveClassesComplete : Obligations.ReceiveClassesComplete := by
  intro s l hlive
  refine ⟨unitStep_of_live hlive rxProtocolReset, unitStep_of_live hlive (rxControl .stop),
    unitStep_of_live hlive (rxControl .resume), unitStep_of_live hlive (rxControl .status),
    unitStep_of_live hlive (rxControl .superstatus), exec_rxInvalidMarker hlive, fun hl q hpush => ?_, fun hl hnone => ?_⟩
  · rw [exec_rxPayload hlive hl, rxDeliver_of_push hpush]
  · rw [exec_rxPayload hlive hl, rxDeliver_of_full hnone]
    rfl

/-! ## Scripts of received bytes -/

/-- A live machine with interrupts enabled and an empty data register: a wire byte can arrive (R285). -/
structure ReceiverIdle (s : State) : Prop where
  live : s.live
  gie : s.gie = true
  free : s.uart.rxFull = false
  noOverrun : s.uart.rxOvr = false

/-- `s` with the byte `b` read from the data register and the script `rest`: what the classifier finds once `b` has arrived
at an idle receiver and the handler has been entered. -/
def withRead (b : Byte) (rest : List Input) (s : State) : State :=
  { s with script := rest, uart := { s.uart with rxData := b } }

/-- The byte `b` waits in the data register (R285). -/
def withWaiting (b : Byte) (s : State) : State := { s with uart := { s.uart with rxData := b, rxFull := true } }

/-- R170, R171: the entry of a handler that reads the byte an idle receiver was given. -/
theorem ReceiverIdle.afterRxEntry_withWaiting (h : ReceiverIdle s) (b : Byte) (rest : List Input) :
    ((withWaiting b s).withScript rest).afterRxEntry = withRead b rest s := by
  simp only [State.afterRxEntry, withWaiting, withRead, State.withScript, h.noOverrun, h.free, Bool.false_eq_true,
    if_false]

/-- R285: `RX` at an idle receiver. -/
theorem ReceiverIdle.step_rxArrive (h : ReceiverIdle s) (hscript : s.script = (Instr.rxArrive b).input :: rest) :
    step s = .next ((withWaiting b s).withScript rest) := by
  rw [step_of_input hscript rfl rfl]
  exact admitEvent_next.mpr ⟨h.live, h.gie, by simp [h.free, withWaiting, State.withScript]⟩

/-- R282: `RUN RXI` while a byte waits. -/
theorem step_runRxi (hlive : s.live) (hgie : s.gie = true) (hfull : s.uart.rxFull = true)
    (hscript : s.script = Instr.evRx.input :: rest) :
    step s = .next (rxByte s.uart.rxData (s.withScript rest).afterRxEntry) := by
  rw [step_of_input hscript rfl rfl]
  exact exec_evRx (s := s.withScript rest) hlive hgie hfull

/-- R135: the inputs of `RX b` and `RUN RXI`, before the script `rest`. -/
def receiveInputs (b : Byte) (rest : List Input) : List Input :=
  (Instr.rxArrive b).input :: Instr.evRx.input :: rest

/-- R170 to R181, R285: `RX b` and `RUN RXI` at an idle receiver hand `b` to the classifier. -/
theorem ReceiverIdle.receive (h : ReceiverIdle s) (hscript : s.script = receiveInputs b rest) (n : Nat) :
    stepsRun (n + 2) s = stepsRun n (rxByte b (withRead b rest s)) := by
  have hrxi := step_runRxi (s := (withWaiting b s).withScript (Instr.evRx.input :: rest)) h.live h.gie rfl rfl
  rw [stepsRun_of_step (h.step_rxArrive hscript), stepsRun_of_step hrxi, ← h.afterRxEntry_withWaiting b rest]
  rfl

theorem ReceiverIdle.withScript (h : ReceiverIdle s) (l : List Input) : ReceiverIdle (s.withScript l) :=
  ⟨h.live, h.gie, h.free, h.noOverrun⟩

/-- `s` after the reset code has been received, the script `rest` still to run (R172). -/
def resetReceived (rest : List Input) (s : State) : State :=
  rxProtocolReset (withRead Config.codeReset rest s)

theorem ReceiverIdle.resetReceived (h : ReceiverIdle s) (rest : List Input) : ReceiverIdle (resetReceived rest s) :=
  ⟨h.live, h.gie, h.free, h.noOverrun⟩

/-- `s` after the first copy `x` has been received, the script `rest` still to run (R173). -/
def firstReceived (x : Byte) (rest : List Input) (s : State) : State :=
  rxHold x (withRead x rest s)

theorem ReceiverIdle.firstReceived (h : ReceiverIdle s) (x : Byte) (rest : List Input) :
    ReceiverIdle (firstReceived x rest s) :=
  ⟨h.live, h.gie, h.free, h.noOverrun⟩

/-- R182: whatever was held before, the byte after a reset code is held as a first copy, and the next byte `y` is
classified against it. -/
theorem reset_then_pair (h : ReceiverIdle s) {x : Byte} (hx : x ≠ Config.codeReset) (y : Byte)
    (rest : List Input) :
    stepsRun 6 (s.withScript (scriptOf (rxResetLines ++ [.rx x, .runRxi, .rx y, .runRxi]) ++ rest)) =
      .next (rxByte y (withRead y rest (firstReceived x rest (resetReceived rest s)))) :=
  let second := receiveInputs y rest
  let first := receiveInputs x second
  let script := receiveInputs Config.codeReset first
  calc stepsRun 6 (s.withScript script)
    _ = stepsRun 4 (rxByte Config.codeReset (withRead Config.codeReset first s)) := (h.withScript script).receive rfl 4
    _ = stepsRun 4 (resetReceived first s) := congrArg _ (rxByte_reset _)
    _ = stepsRun 2 (rxByte x (withRead x second (resetReceived first s))) := (h.resetReceived _).receive rfl 2
    _ = stepsRun 2 (firstReceived x second (resetReceived first s)) := congrArg _ (rxByte_first hx rfl)
    _ = .next (rxByte y (withRead y rest (firstReceived x rest (resetReceived rest s)))) :=
      ((h.resetReceived _).firstReceived x _).receive rfl 0

/-- Settles O24: the second byte is compared with the first copy held after the reset (`reset_then_pair`). If
it agrees the byte is dispatched, by its class; if it differs nothing is delivered. -/
theorem duplicateDetectorLaws : Obligations.DuplicateDetectorLaws := by
  intro s rest x y hlive hgie hfree hovr hx twice after
  have hidle : ReceiverIdle s := ⟨hlive, hgie, hfree, hovr⟩
  have htwice : twice = .next (rxDispatch x (after x)) :=
    (reset_then_pair hidle hx x rest).trans (congrArg _ (rxByte_second hx rfl rfl))
  refine ⟨fun k hk => ?_, fun hmarker => ?_, fun q hprintable hpush => ?_, fun hprintable hnone => ?_, fun hxy hy => ?_⟩
  · rw [htwice, rxDispatch_control hk]
    rfl
  · rw [htwice, rxDispatch_of_isInvalidMarker hmarker]
    rfl
  · rw [htwice, rxDispatch_printable hprintable, rxDeliver_of_push (s := after x) hpush]
  · rw [htwice, rxDispatch_printable hprintable, rxDeliver_of_full (s := after x) hnone]
    rfl
  · exact (reset_then_pair hidle hx y rest).trans (congrArg _ (rxByte_mismatch hy rfl hxy.symm))

end Sys2Proof.Proofs
end

section
/-! PROOFS. 42_serial_tx_flow.md R196 to R199: the number that `SEND_PARAM` sends. `binary64Magnitude` reads the bits below
the sign as a number and rises with them (`binary64Magnitude_strictMono`), so the range test on bits is the numerical one
(O29). Each rounding moves its argument by at most half a unit (O30); with the range this bounds the error (O32), and the
bound keeps the biased integer within the 28 bits that the frame carries (O31). -/

namespace Sys2Proof.Proofs

open Sys2Proof Sys2Proof.Machine

variable {v value : F64} {x k : Nat}

/-! ## The bits below the sign as a number -/

/-- The integer significand of the binary64 numbers with the bits `n` below the sign. -/
def significandOfBits (n : Nat) : Nat := if n / 2 ^ 52 = 0 then n % 2 ^ 52 else 2 ^ 52 + n % 2 ^ 52

/-- The power of two of that significand's unit. -/
def exponentOfBits (n : Nat) : Int := (max (n / 2 ^ 52) 1 : Nat) - 1075

/-- The absolute value of a finite binary64 with the bits `n` below the sign. -/
def binary64Magnitude (n : Nat) : ℚ := (significandOfBits n : ℚ) * (2 : ℚ) ^ exponentOfBits n

/-- -1 for a negative binary64, 1 for any other. -/
def f64Sign (v : F64) : ℚ := if f64Negative v then -1 else 1

theorem f64ExpField_eq (v : F64) : f64ExpField v = f64MagnitudeBits v / 2 ^ 52 := by
  simp only [f64ExpField, f64MagnitudeBits, BitVec.extractLsb'_toNat, Nat.shiftRight_eq_div_pow]
  omega

theorem f64Fraction_eq (v : F64) : f64Fraction v = f64MagnitudeBits v % 2 ^ 52 := by
  simp only [f64Fraction, f64MagnitudeBits, BitVec.extractLsb'_toNat, Nat.shiftRight_eq_div_pow]
  omega

theorem f64Significand_eq (v : F64) : f64Significand v = significandOfBits (f64MagnitudeBits v) := by
  rw [f64Significand, significandOfBits, f64ExpField_eq, f64Fraction_eq]

theorem f64Exponent_eq (v : F64) : f64Exponent v = exponentOfBits (f64MagnitudeBits v) := by
  rw [f64Exponent, exponentOfBits, f64ExpField_eq]

theorem f64Value_eq (v : F64) : f64Value v = f64Sign v * binary64Magnitude (f64MagnitudeBits v) := by
  rw [f64Value, f64Sign, binary64Magnitude, f64Significand_eq, f64Exponent_eq, mul_assoc]

theorem binary64Magnitude_nonneg (n : Nat) : 0 ≤ binary64Magnitude n := by
  unfold binary64Magnitude
  positivity

/-- The next bits stand for the next larger number: within one exponent the significand grows by one, and at the end of
the fraction field the exponent does. -/
theorem binary64Magnitude_lt_succ (n : Nat) : binary64Magnitude n < binary64Magnitude (n + 1) := by
  unfold binary64Magnitude
  by_cases hexp : exponentOfBits (n + 1) = exponentOfBits n
  · have hsig : significandOfBits n < significandOfBits (n + 1) := by
      simp only [exponentOfBits, significandOfBits] at hexp ⊢
      split_ifs <;> omega
    rw [hexp]
    gcongr
  · have hexp' : exponentOfBits (n + 1) = exponentOfBits n + 1 := by
      simp only [exponentOfBits] at hexp ⊢
      omega
    have hsig : significandOfBits n < significandOfBits (n + 1) * 2 := by
      simp only [exponentOfBits, significandOfBits] at hexp ⊢
      split_ifs <;> omega
    rw [hexp', zpow_add_one₀ two_ne_zero, mul_comm _ (2 : ℚ), ← mul_assoc]
    gcongr
    exact_mod_cast hsig

/-- The order of the bits below the sign is the order of the magnitudes. -/
theorem binary64Magnitude_strictMono : StrictMono binary64Magnitude :=
  strictMono_nat_of_lt_succ binary64Magnitude_lt_succ

/-! ## The range test, R196 -/

theorem f64MagnitudeBits_paramLow : f64MagnitudeBits paramLow = 0x4100624DD2F1A9FC := by decide

theorem f64MagnitudeBits_paramHigh : f64MagnitudeBits paramHigh = 0x4100624DD0E56042 := by decide

theorem f64Value_paramLow : f64Value paramLow = -(4611686018427388 / 2 ^ 35) := by
  rw [f64Value_eq, f64MagnitudeBits_paramLow, f64Sign, if_pos (by decide)]
  norm_num [binary64Magnitude, significandOfBits, exponentOfBits]

theorem f64Value_paramHigh : f64Value paramHigh = 4611685984067650 / 2 ^ 35 := by
  rw [f64Value_eq, f64MagnitudeBits_paramHigh, f64Sign, if_neg (by decide)]
  norm_num [binary64Magnitude, significandOfBits, exponentOfBits]

/-- A finite binary64 is one whose exponent field is not all ones. -/
theorem f64Finite_of_lt (h : f64MagnitudeBits v < 2047 * 2 ^ 52) : f64Finite v = true := by
  rw [f64Finite, f64ExpField_eq, bne_iff_ne]
  omega

/-- R196: the test compares the bits below the sign with those of the bound on the value's side of 0. -/
theorem paramInRange_iff_bits : paramInRange v = true ↔
    f64MagnitudeBits v ≤ if f64Negative v then f64MagnitudeBits paramLow else f64MagnitudeBits paramHigh := by
  unfold paramInRange
  split_ifs <;> exact decide_eq_true_iff

theorem magnitudeBits_le_of_inRange (h : paramInRange v = true) : f64MagnitudeBits v ≤ 0x4100624DD2F1A9FC := by
  rw [paramInRange_iff_bits, f64MagnitudeBits_paramLow, f64MagnitudeBits_paramHigh] at h
  split_ifs at h <;> omega

/-- Below 0 only the lower bound says anything, from 0 on only the upper one, and there the order of the values is the
order of the bits. -/
theorem paramInRange_iff_value :
    paramInRange v = true ↔ f64Value paramLow ≤ f64Value v ∧ f64Value v ≤ f64Value paramHigh := by
  have hmagnitude := binary64Magnitude_nonneg
  have hlow : f64Sign paramLow = -1 := if_pos (by decide)
  have hhigh : f64Sign paramHigh = 1 := if_neg (by decide)
  rw [paramInRange_iff_bits, f64Value_eq paramLow, f64Value_eq v, f64Value_eq paramHigh, hlow, hhigh, f64Sign]
  split_ifs with hneg
  · rw [neg_one_mul, neg_one_mul, neg_le_neg_iff, binary64Magnitude_strictMono.le_iff_le]
    have habove : -binary64Magnitude (f64MagnitudeBits v) ≤ 1 * binary64Magnitude (f64MagnitudeBits paramHigh) := by
      linarith [hmagnitude (f64MagnitudeBits v), hmagnitude (f64MagnitudeBits paramHigh)]
    exact (and_iff_left habove).symm
  · rw [one_mul, one_mul, binary64Magnitude_strictMono.le_iff_le]
    have hbelow : -1 * binary64Magnitude (f64MagnitudeBits paramLow) ≤ binary64Magnitude (f64MagnitudeBits v) := by
      linarith [hmagnitude (f64MagnitudeBits v), hmagnitude (f64MagnitudeBits paramLow)]
    exact (and_iff_right hbelow).symm

/-- Settles O29: what passes the test has the exponent field of a number; the bounds are concrete. -/
theorem paramRangeIsNumeric : Obligations.ParamRangeIsNumeric := by
  refine ⟨fun v => ⟨fun h => ?_, fun h => paramInRange_iff_value.mpr h.2⟩, ?_, ?_⟩
  · have hbits := magnitudeBits_le_of_inRange h
    exact ⟨f64Finite_of_lt (by omega), paramInRange_iff_value.mp h⟩
  · rw [f64Value_paramLow]
    norm_num [abs_le]
  · rw [f64Value_paramHigh]
    norm_num [abs_le]

/-! ## The two roundings, R197 -/

/-- The binary64 rounding takes the quotient or the next integer, whichever is nearer, and on a tie the even one. -/
theorem roundTiesEven_cases (x k : Nat) :
    (2 * (x % 2 ^ k) < 2 ^ k ∧ roundTiesEven x k = x / 2 ^ k) ∨
    (2 ^ k < 2 * (x % 2 ^ k) ∧ roundTiesEven x k = x / 2 ^ k + 1) ∨
    (2 * (x % 2 ^ k) = 2 ^ k ∧ roundTiesEven x k % 2 = 0 ∧
      (roundTiesEven x k = x / 2 ^ k ∨ roundTiesEven x k = x / 2 ^ k + 1)) := by
  unfold roundTiesEven
  simp only []
  split_ifs <;> omega

/-- Twice the argument is within one unit of twice the rounded number, and on a tie the rounded number is even. -/
theorem roundTiesEven_nearest (x k : Nat) :
    2 * x ≤ 2 * roundTiesEven x k * 2 ^ k + 2 ^ k ∧ 2 * roundTiesEven x k * 2 ^ k ≤ 2 * x + 2 ^ k ∧
    ((2 * x = 2 * roundTiesEven x k * 2 ^ k + 2 ^ k ∨ 2 * roundTiesEven x k * 2 ^ k = 2 * x + 2 ^ k) →
      roundTiesEven x k % 2 = 0) := by
  have hdivision := Nat.div_add_mod' x (2 ^ k)
  have hpos : 0 < 2 ^ k := Nat.two_pow_pos k
  rw [mul_assoc]
  have hnext : (x / 2 ^ k + 1) * 2 ^ k = x / 2 ^ k * 2 ^ k + 2 ^ k := Nat.succ_mul _ _
  rcases roundTiesEven_cases x k with ⟨hbelow, h⟩ | ⟨habove, h⟩ | ⟨htie, heven, h⟩
  · rw [h]
    omega
  · rw [h, hnext]
    omega
  · have hbounds : 2 * x ≤ 2 * (roundTiesEven x k * 2 ^ k) + 2 ^ k ∧ 2 * (roundTiesEven x k * 2 ^ k) ≤ 2 * x + 2 ^ k := by
      rcases h with h | h
      · rw [h]
        omega
      · rw [h, hnext]
        omega
    exact ⟨hbounds.1, hbounds.2, fun _ => heven⟩

/-- The rounding of `x * 2 ^ -(k + 1)` is a division that rounds to nearest, also where the model answers 0 at once. -/
theorem roundTiesAway_negSucc_bounds (hx : x < 2 ^ 54) (k : Nat) :
    roundTiesAway x (.negSucc k) * 2 ^ (k + 1) ≤ x + 2 ^ k ∧
    x + 2 ^ k < (roundTiesAway x (.negSucc k) + 1) * 2 ^ (k + 1) := by
  simp only [roundTiesAway]
  split_ifs with hk
  · rw [Nat.succ_mul]
    exact ⟨Nat.div_mul_le_self _ _, Nat.lt_div_mul_add (by positivity)⟩
  · have hpow : 2 ^ 54 ≤ 2 ^ k := Nat.pow_le_pow_right two_pos (by omega)
    rw [pow_succ]
    omega

/-- R24: the rounded integer is at most one half above the number and less than one half below it. -/
theorem roundTiesAway_nearest (hx : x < 2 ^ 54) (e : Int) :
    (roundTiesAway x e : ℚ) - 1 / 2 ≤ (x : ℚ) * (2 : ℚ) ^ e ∧ (x : ℚ) * (2 : ℚ) ^ e < (roundTiesAway x e : ℚ) + 1 / 2 := by
  cases e with
  | ofNat k =>
    have hexact : (roundTiesAway x (.ofNat k) : ℚ) = (x : ℚ) * (2 : ℚ) ^ (Int.ofNat k) := by
      simp [roundTiesAway]
    rw [hexact]
    constructor <;> linarith
  | negSucc k =>
    obtain ⟨hle, hlt⟩ := roundTiesAway_negSucc_bounds hx k
    have hle' : (roundTiesAway x (.negSucc k) : ℚ) * 2 ^ (k + 1) ≤ x + 2 ^ k := by exact_mod_cast hle
    have hlt' : (x : ℚ) + 2 ^ k < (roundTiesAway x (.negSucc k) + 1) * 2 ^ (k + 1) := by exact_mod_cast hlt
    have hpos : (0 : ℚ) < 2 ^ (k + 1) := by positivity
    have hhalf : (2 : ℚ) ^ k = 1 / 2 * 2 ^ (k + 1) := by rw [pow_succ]; ring
    rw [zpow_negSucc, ← div_eq_mul_inv, le_div_iff₀ hpos, div_lt_iff₀ hpos]
    constructor <;> linarith

/-- Settles O30. -/
theorem paramRoundingIsNearest : Obligations.ParamRoundingIsNearest := by
  refine ⟨fun x k => ?_, fun x e hx => roundTiesAway_nearest hx e⟩
  obtain ⟨habove, hbelow, htie⟩ := roundTiesEven_nearest x k
  exact ⟨habove, hbelow, fun h _ => htie h⟩

/-! ## The error of the integer sent, R199 -/

/-- R24: the integer rounding moves its argument by at most one half. -/
theorem roundTiesAway_error (hx : x < 2 ^ 54) (e : Int) : |(roundTiesAway x e : ℚ) - (x : ℚ) * (2 : ℚ) ^ e| ≤ 1 / 2 := by
  obtain ⟨hle, hlt⟩ := roundTiesAway_nearest hx e
  rw [abs_le]
  constructor <;> linarith

/-- The binary64 rounding moves its argument by at most half a unit. -/
theorem roundTiesEven_error (x k : Nat) : |(roundTiesEven x k : ℚ) * 2 ^ k - x| ≤ 2 ^ k / 2 := by
  obtain ⟨habove, hbelow, _⟩ := roundTiesEven_nearest x k
  have habove' : (2 : ℚ) * x ≤ 2 * roundTiesEven x k * 2 ^ k + 2 ^ k := by exact_mod_cast habove
  have hbelow' : (2 : ℚ) * roundTiesEven x k * 2 ^ k ≤ 2 * x + 2 ^ k := by exact_mod_cast hbelow
  rw [abs_le]
  constructor <;> linarith

/-- The excess bits are none, or so many that exactly 53 are left. -/
theorem excessBits_cases (x : Nat) :
    (x < 2 ^ 53 ∧ excessBits x = 0) ∨ (2 ^ (52 + excessBits x) ≤ x ∧ x < 2 ^ (53 + excessBits x)) := by
  by_cases hx : x < 2 ^ 53
  · exact .inl ⟨hx, if_pos hx⟩
  · have hlog : 53 ≤ x.log2 := (Nat.le_log2 (by omega)).mpr (by omega)
    have hexcess : excessBits x = x.log2 - 52 := if_neg hx
    rw [hexcess, show 52 + (x.log2 - 52) = x.log2 by omega, show 53 + (x.log2 - 52) = x.log2 + 1 by omega]
    exact .inr ⟨Nat.log2_self_le (by omega), Nat.lt_log2_self⟩

theorem roundTiesEven_le (x k : Nat) : roundTiesEven x k ≤ x / 2 ^ k + 1 := by
  rcases roundTiesEven_cases x k with ⟨_, h⟩ | ⟨_, h⟩ | ⟨_, _, h | h⟩ <;> omega

/-- A significand of 53 bits, or 2^53 after the rounding. -/
theorem productSignificand_lt (v : F64) : productSignificand v < 2 ^ 54 := by
  simp only [productSignificand]
  generalize f64Significand v * Config.paramScale = x
  have hquotient : x / 2 ^ excessBits x < 2 ^ 53 := by
    rcases excessBits_cases x with ⟨hx, h⟩ | ⟨_, hx⟩
    · rwa [h, pow_zero, Nat.div_one]
    · rwa [Nat.div_lt_iff_lt_mul (by positivity), ← pow_add]
  have hround := roundTiesEven_le x (excessBits x)
  omega

/-- The product before its rounding. -/
theorem exactProduct_eq (v : F64) :
    ((f64Significand v * Config.paramScale : Nat) : ℚ) * (2 : ℚ) ^ f64Exponent v =
      1000 * binary64Magnitude (f64MagnitudeBits v) := by
  rw [binary64Magnitude, ← f64Significand_eq, ← f64Exponent_eq, Nat.cast_mul]
  ring

/-- Rounding to 53 bits moves a number below 2^27 by at most 2^-27: its unit is at most 2^-26. -/
theorem roundToExcess_error {e : Int} (hx : (x : ℚ) * (2 : ℚ) ^ e < 2 ^ 27) :
    |(roundTiesEven x (excessBits x) : ℚ) * (2 : ℚ) ^ (e + excessBits x) - x * (2 : ℚ) ^ e| ≤ 1 / 2 ^ 27 := by
  have hunit : (2 : ℚ) ^ (e + excessBits x) = 2 ^ excessBits x * (2 : ℚ) ^ e := by
    rw [zpow_add₀ two_ne_zero, zpow_natCast, mul_comm]
  have hscaled : (roundTiesEven x (excessBits x) : ℚ) * (2 : ℚ) ^ (e + excessBits x) - x * (2 : ℚ) ^ e =
      (roundTiesEven x (excessBits x) * 2 ^ excessBits x - x) * (2 : ℚ) ^ e := by
    rw [hunit]
    ring
  rw [hscaled, abs_mul, abs_of_pos (zpow_pos two_pos e : (0 : ℚ) < _)]
  rcases excessBits_cases x with ⟨_, h⟩ | ⟨hlow, _⟩
  · have hexact : roundTiesEven x 0 = x := by simp [roundTiesEven, Nat.mod_one]
    rw [h, hexact, pow_zero, mul_one, sub_self, abs_zero, zero_mul]
    positivity
  · have hlow' : (2 : ℚ) ^ (52 + excessBits x) ≤ x := by exact_mod_cast hlow
    have hsmall : (2 : ℚ) ^ (52 + (e + excessBits x)) < (2 : ℚ) ^ (27 : Int) := by
      calc (2 : ℚ) ^ (52 + (e + excessBits x))
        _ = 2 ^ (52 + excessBits x) * (2 : ℚ) ^ e := by
          rw [zpow_add₀ two_ne_zero, hunit, pow_add, mul_assoc]
          rfl
        _ ≤ x * (2 : ℚ) ^ e := by gcongr
        _ < 2 ^ 27 := hx
    have hexp : e + excessBits x ≤ -26 := by
      have := (zpow_lt_zpow_iff_right₀ one_lt_two).mp hsmall
      omega
    calc |(roundTiesEven x (excessBits x) : ℚ) * 2 ^ excessBits x - x| * (2 : ℚ) ^ e
      _ ≤ 2 ^ excessBits x / 2 * (2 : ℚ) ^ e := by gcongr; exact roundTiesEven_error x _
      _ = (2 : ℚ) ^ (e + excessBits x) / 2 := by rw [hunit]; ring
      _ ≤ (2 : ℚ) ^ (-26 : Int) / 2 := by gcongr; exact one_le_two
      _ = 1 / 2 ^ 27 := by norm_num

/-- R197: the product of a value in range is within 2^-27 of the exact one. Below the largest magnitude in range the exact
product is below 2^27; the largest one is rounded to 2^27 itself. -/
theorem product_error (h : paramInRange v = true) :
    |(productSignificand v : ℚ) * (2 : ℚ) ^ productExponent v - 1000 * binary64Magnitude (f64MagnitudeBits v)| ≤
      1 / 2 ^ 27 := by
  rw [← exactProduct_eq]
  rcases (magnitudeBits_le_of_inRange h).lt_or_eq with hbits | hbits
  · refine roundToExcess_error ?_
    rw [exactProduct_eq]
    have hbelow := binary64Magnitude_strictMono.monotone (Nat.le_sub_one_of_lt hbits)
    have hvalue : binary64Magnitude (0x4100624DD2F1A9FC - 1) = 4611686018427387 / 2 ^ 35 := by
      norm_num [binary64Magnitude, significandOfBits, exponentOfBits]
    rw [hvalue] at hbelow
    calc 1000 * binary64Magnitude (f64MagnitudeBits v)
      _ ≤ 1000 * (4611686018427387 / 2 ^ 35) := by gcongr
      _ < 2 ^ 27 := by norm_num
  · have hsig : f64Significand v = 4611686018427388 := by rw [f64Significand_eq, hbits]; decide
    have hexp : f64Exponent v = -35 := by rw [f64Exponent_eq, hbits]; decide
    have hproduct : productSignificand v = 2 ^ 52 := by rw [productSignificand, hsig]; decide
    have hunit : productExponent v = -25 := by rw [productExponent, hsig, hexp]; decide
    rw [hproduct, hunit, hsig, hexp]
    norm_num [abs_le]

theorem paramInteger_eq (v : F64) :
    (paramInteger v : ℚ) = f64Sign v * roundTiesAway (productSignificand v) (productExponent v) := by
  unfold paramInteger f64Sign
  split_ifs <;> push_cast <;> ring

theorem abs_f64Sign (v : F64) : |f64Sign v| = 1 := by
  unfold f64Sign
  split_ifs <;> simp

/-- Settles O32: on the magnitudes, the two roundings in turn. -/
theorem paramErrorBound : Obligations.ParamErrorBound := by
  intro value h
  have hproduct := product_error h
  have hinteger := roundTiesAway_error (productSignificand_lt value) (productExponent value)
  have hsigned : (paramInteger value : ℚ) - 1000 * f64Value value = f64Sign value *
      (roundTiesAway (productSignificand value) (productExponent value) -
        1000 * binary64Magnitude (f64MagnitudeBits value)) := by
    rw [paramInteger_eq, f64Value_eq]
    ring
  rw [hsigned, abs_mul, abs_f64Sign, one_mul]
  exact (abs_sub_le _ _ _).trans (add_le_add hinteger hproduct)

/-! ## The frame, R198 -/

/-- R196, R198: the integer of a value in range lies in the range of a biased 28-bit number. -/
theorem paramInteger_bounds (h : paramInRange value = true) :
    -(Config.paramBias : Int) ≤ paramInteger value ∧ paramInteger value < Config.paramBias := by
  obtain ⟨hlow, hhigh⟩ := paramInRange_iff_value.mp h
  obtain ⟨hbelow, habove⟩ := abs_le.mp (paramErrorBound value h)
  rw [f64Value_paramLow] at hlow
  rw [f64Value_paramHigh] at hhigh
  have hlower : (-134217729 : ℚ) < paramInteger value := by linarith
  have hupper : (paramInteger value : ℚ) < 134217728 := by linarith
  have hlower' : -134217729 < paramInteger value := by exact_mod_cast hlower
  have hupper' : paramInteger value < 134217728 := by exact_mod_cast hupper
  simp only [Config.paramBias]
  omega

theorem paramValueByte_getLsbD_seven (g : BitVec 7) : (paramValueByte g).getLsbD 7 = true := by
  revert g
  decide

/-- R124: the low seven bits of a value byte are its group. -/
theorem paramGroup_toNat (n : BitVec 28) (i : Nat) :
    (paramGroup n i).toNat % 128 = n.toNat / 2 ^ (7 * i) % 128 := by
  rw [paramGroup, paramValueByte_toNat, BitVec.toNat_ofNat]
  omega

/-- R127: the four groups of a 28-bit number put it together again. -/
theorem peerDecode_groups (n : BitVec 28) :
    peerDecode (paramGroup n 0) (paramGroup n 1) (paramGroup n 2) (paramGroup n 3) = n.toNat - Config.paramBias := by
  simp only [peerDecode, paramGroup_toNat]
  omega

/-- R126: a biased integer that fits 28 bits is stored as it is. -/
theorem paramBiased_toNat {n : Int} (hlow : -(Config.paramBias : Int) ≤ n) (hhigh : n < Config.paramBias) :
    ((paramBiased n).toNat : Int) = n + Config.paramBias := by
  rw [paramBiased, BitVec.toNat_ofInt]
  simp only [Config.paramBias] at *
  omega

/-- Settles O31: the error bound keeps the biased integer within 28 bits, and the groups are read back. -/
theorem paramFrameRoundTrip : Obligations.ParamFrameRoundTrip := by
  intro value h
  obtain ⟨hlow, hhigh⟩ := paramInteger_bounds h
  refine ⟨by omega, by simp only [Config.paramBias, Config.paramBits] at *; omega, ?_⟩
  rintro tag _ _ _ _ ⟨⟩
  refine ⟨rfl, paramValueByte_getLsbD_seven _, paramValueByte_getLsbD_seven _, paramValueByte_getLsbD_seven _,
    paramValueByte_getLsbD_seven _, ?_⟩
  rw [paramFirst, peerDecode_groups, paramBiased_toNat hlow hhigh]
  omega

end Sys2Proof.Proofs
end

section
/-! PROOFS. 42_serial_tx_flow.md R193 to R196: `SEND_BYTE` (O25), the issue of `SEND_PARAM` (O27, O28) and MAIN's step for
a send that waits in either slot (O34). -/

namespace Sys2Proof.Proofs

open Sys2Proof Sys2Proof.Machine

variable {s : State} {slot : SlotId} {b tag : Byte} {bytes : List Byte} {value : F64} {q : RingBuf Config.txCap}

/-! ## A send that waits -/

/-- R194: the bytes `b :: bytes` of a send wait in the slot, and it is the slot that MAIN's step goes on with. -/
def SendWaits (s : State) (b : Byte) (bytes : List Byte) : SlotId → Prop
  | .top => s.main.mode = .sending b bytes
  | .nested => s.main.mode = .reading ∧ s.main.inIdle = true ∧ s.main.nested = .sending b bytes

theorem mainStep_of_sendWaits (hlive : s.live) (h : SendWaits s b bytes slot) :
    mainStep s = resumeSending slot b bytes s := by
  rw [mainStep, guardLive_of_live hlive]
  cases slot with
  | top => rw [show s.main.mode = .sending b bytes from h]
  | nested =>
    obtain ⟨hread, hin, hnested⟩ := h
    simp only [hread, hin, hnested, if_true]

/-- R194, R195: while the TX ring has room, the step of MAIN enqueues the first byte that waits. -/
theorem mainStep_of_push (hlive : s.live) (h : SendWaits s b bytes slot) (hpush : s.tx.push b = some q) :
    mainStep s = .next (({ s with tx := q, txie := true } : State).setSlot slot bytes) := by
  rw [mainStep_of_sendWaits hlive h, ← sendStep_of_push hpush]
  exact resumeSending_next.mpr ⟨isFull_of_push hpush, rfl⟩

/-- R194: while the TX ring is full, MAIN has no step (log 7). -/
theorem mainStep_of_full (hlive : s.live) (h : SendWaits s b bytes slot) (hfull : s.tx.push b = none) :
    mainStep s = .refused .notEnabled := by
  rw [mainStep_of_sendWaits hlive h, resumeSending, if_pos (ringPush_eq_none_iff.mp hfull)]

/-- Settles O34: the two slots a send can wait in, each with room and with a full ring. -/
theorem waitingSendContinues : Obligations.WaitingSendContinues := by
  intro s b rest hlive
  exact ⟨fun htop q hpush => mainStep_of_push (slot := .top) hlive htop hpush,
    fun hread hin hnested q hpush => mainStep_of_push (slot := .nested) hlive ⟨hread, hin, hnested⟩ hpush,
    fun htop hfull => mainStep_of_full (slot := .top) hlive htop hfull,
    fun hread hin hnested hfull => mainStep_of_full (slot := .nested) hlive ⟨hread, hin, hnested⟩ hfull⟩

/-! ## `SEND_BYTE` -/

/-- R190, R194: bytes put into the slot of an admitted operation wait there. -/
theorem sendWaits_of_admits (h : s.admits slot) (b : Byte) (bytes : List Byte) :
    SendWaits (s.setSlot slot (b :: bytes)) b bytes slot := by
  obtain ⟨_, h⟩ := h
  cases slot with
  | top => rfl
  | nested =>
    obtain ⟨hread, hin, _⟩ := h
    exact ⟨hread, hin, rfl⟩

/-- R190: a slot holds what was put into it last. -/
theorem setSlot_setSlot (s : State) (slot : SlotId) (p q : List Byte) :
    (s.setSlot slot p).setSlot slot q = s.setSlot slot q := by
  cases slot <;> rfl

/-- R194: a single byte that waited leaves its slot free when it is enqueued. -/
theorem mainStep_of_last_byte (h : s.admits slot) (hpush : s.tx.push b = some q) :
    mainStep (s.setSlot slot [b]) = .next { s with tx := q, txie := true } := by
  have hfree : ({ s with tx := q, txie := true } : State).admits slot := h
  have hlive : (s.setSlot slot [b]).live := h.1
  rw [mainStep_of_push hlive (sendWaits_of_admits h b []) hpush]
  exact congrArg _ ((setSlot_setSlot { s with tx := q, txie := true } slot [b] []).trans (setSlot_nil_of_admits hfree))

/-- Settles O25. -/
theorem sendByteEnqueuesOrWaits : Obligations.SendByteEnqueuesOrWaits := by
  intro s slot b h
  have hlive : (s.setSlot slot [b]).live := h.1
  refine ⟨rfl, fun q hpush => sendOp_of_push h hpush, fun hfull => ⟨sendOp_of_full h hfull, ?_, fun r q hpush => ?_⟩⟩
  · exact mainStep_of_full hlive (sendWaits_of_admits h b []) hfull
  · have hroom : ({ s with tx := r } : State).admits slot := h
    exact mainStep_of_last_byte hroom hpush

/-! ## The issue of `SEND_PARAM` -/

/-- R196: with a 7-bit tag and a value in range the issue is that of a send of the frame's bytes. -/
theorem exec_sendParam (h : s.admits slot) (htag : tag.getLsbD 7 = false) (hrange : paramInRange value = true) :
    exec (.sendParam tag value) s = .next (startSending slot (paramFirst value) (paramRest tag value) s) := by
  rw [exec, execSendParam, admitOp_of_admits h, htag, hrange]
  rfl

/-- Settles O27. -/
theorem sendParamStartsFrame : Obligations.SendParamStartsFrame := by
  intro s slot tag value h htag hrange
  rw [exec_sendParam h htag hrange]
  exact ⟨fun q hpush => congrArg _ (startSending_of_push hpush), fun hfull => congrArg _ (startSending_of_full hfull)⟩

/-- Settles O28: the tag is tested before the value. -/
theorem sendParamRejects : Obligations.SendParamRejects := by
  intro s slot tag value h
  refine ⟨fun htag => ?_, fun htag hrange => ?_⟩
  · rw [exec, execSendParam, admitOp_of_admits h, htag]
    rfl
  · rw [exec, execSendParam, admitOp_of_admits h, htag, hrange, ← recordFault_of_live h.1]
    rfl

end Sys2Proof.Proofs
end

section
/-! PROOFS. 42_serial_tx_flow.md R205 to R211: `READ_BYTE` with a byte there (O35), its wait (O36), and a sequence of reads
(O37): each read moves one byte from the ring to the trace and adds one to the bytes counted, sixteen for each pending
acknowledgment. -/

namespace Sys2Proof.Proofs

open Sys2Proof Sys2Proof.Machine

variable {s t u : State} {b : Byte} {bs cs : List Byte} {q : RingBuf Config.rxCap} {rest : List Input}

/-! ## Taking a byte -/

section Take

variable (hpop : s.rx.pop = some (b, q))
include hpop

theorem rxTake_of_pop : rxTake s = (chunkAccount { s with rx := q }).map fun t => t.ret (.byte b) := by
  rw [rxTake, hpop]

/-- R206, R207: a byte within a chunk is counted. -/
theorem rxTake_of_partial_chunk (hchunk : s.fc.consumed.toNat + 1 ≠ Config.chunkSize) :
    rxTake s = .ok { s with
      rx := q, fc := { s.fc with consumed := s.fc.consumed + 1 }, trace := s.trace ++ [.ret (.byte b)] } := by
  rw [rxTake_of_pop hpop, chunkAccount, if_neg hchunk]
  rfl

/-- R206, R207: the last byte of a chunk queues an acknowledgment and arms. -/
theorem rxTake_of_full_chunk (hchunk : s.fc.consumed.toNat + 1 = Config.chunkSize)
    (hacks : s.fc.pendingAcks.toNat ≠ Config.pendingAcksMax) :
    rxTake s = .ok { s with
      rx := q, fc := { consumed := 0, pendingAcks := s.fc.pendingAcks + 1 }, txie := true
      trace := s.trace ++ [.ret (.byte b)] } := by
  rw [rxTake_of_pop hpop, chunkAccount, if_pos hchunk, if_neg hacks]
  rfl

/-- R208: with the counter at its limit the last byte of a chunk is not taken. -/
theorem rxTake_of_overflow (hchunk : s.fc.consumed.toNat + 1 = Config.chunkSize)
    (hacks : s.fc.pendingAcks.toNat = Config.pendingAcksMax) : rxTake s = .error .ackCounterOverflow := by
  rw [rxTake_of_pop hpop, chunkAccount, if_pos hchunk, if_pos hacks]
  rfl

/-- R205, R206: a read that finds a byte takes it at once. -/
theorem exec_readByte_of_pop (h : s.admits .top) : exec .readByte s = settle s (rxTake s) := by
  have hnonempty : s.rx.isEmpty = false := (ringPop_item hpop).1
  rw [exec, execReadByte, admitTop, guardLive_of_live h.1, admissionSlot_of_admits h]
  simp [hnonempty]

/-- R210: a waiting read outside a callback takes the byte it finds. -/
theorem mainStep_reading_of_pop (hlive : s.live) (hread : s.main.mode = .reading) (hout : s.main.inIdle = false) :
    mainStep s = settle s (finishWait s) := by
  have hnonempty : s.rx.isEmpty = false := (ringPop_item hpop).1
  rw [mainStep, guardLive_of_live hlive]
  simp [hread, hout, hnonempty]

end Take

/-- R301: the fault of a transition from a live state is the only one recorded. -/
theorem settle_error_of_live (hlive : s.live) (f : FaultReason) : settle s (.error f) = .next { s with faults := [f] } :=
  congrArg _ (recordFault_of_live hlive f)

/-- Settles O35. -/
theorem readByteTakesOldest : Obligations.ReadByteTakesOldest := by
  intro s b q h hpop
  rw [exec_readByte_of_pop hpop h]
  refine ⟨fun hchunk => ?_, fun hchunk hacks => ?_, fun hchunk hacks => ?_⟩
  · rw [rxTake_of_partial_chunk hpop hchunk, settle]
  · rw [rxTake_of_full_chunk hpop hchunk hacks, settle]
  · rw [rxTake_of_overflow hpop hchunk hacks, settle_error_of_live h.1]

/-! ## The wait -/

/-- R205, R209: a read that finds the ring empty begins to wait. -/
theorem exec_readByte_of_isEmpty (h : s.admits .top) (hempty : s.rx.isEmpty = true) :
    exec .readByte s = .next (beginWait s) := by
  rw [exec, execReadByte, admitTop, guardLive_of_live h.1, admissionSlot_of_admits h]
  simp [hempty]

/-- R211: a waiting read outside a callback makes an idle iteration while the ring stays empty. -/
theorem mainStep_reading_of_isEmpty (hlive : s.live) (hread : s.main.mode = .reading) (hout : s.main.inIdle = false)
    (hempty : s.rx.isEmpty = true) : mainStep s = .next (idleIteration s) := by
  rw [mainStep, guardLive_of_live hlive]
  simp [hread, hout, hempty]

/-- Settles O36: the end of the wait is the take of O35, with the slot freed. -/
theorem readByteWaits : Obligations.ReadByteWaits := by
  refine ⟨fun s => exec_readByte_of_isEmpty, fun s => mainStep_reading_of_isEmpty,
    fun s b q hlive hread hout hpop hchunk => ?_, fun s b q hlive hread hout hpop hchunk hacks => ?_,
    fun s b q hlive hread hout hpop hchunk hacks => ?_⟩
  · rw [mainStep_reading_of_pop hpop hlive hread hout, finishWait, rxTake_of_partial_chunk hpop hchunk]
    rfl
  · rw [mainStep_reading_of_pop hpop hlive hread hout, finishWait, rxTake_of_full_chunk hpop hchunk hacks]
    rfl
  · rw [mainStep_reading_of_pop hpop hlive hread hout, finishWait, rxTake_of_overflow hpop hchunk hacks]
    exact settle_error_of_live hlive _

/-! ## A sequence of reads -/

/-- A read is admitted, the RX indices are legal and fewer bytes than a chunk are counted (R67). -/
structure ReadReady (s : State) : Prop where
  admits : s.admits .top
  valid : s.rx.valid
  consumed : s.fc.consumed.toNat < Config.chunkSize

/-- The bytes counted and not acknowledged on the wire: those of the open chunk, and a chunk for each pending
acknowledgment (R207). -/
def unacknowledged (s : State) : Nat := Config.chunkSize * s.fc.pendingAcks.toNat + s.fc.consumed.toNat

/-- From `s` to `t` the bytes `bs` were read: they left the ring in order as results, each was counted, and a chunk that
was completed armed the source (R206, R207). -/
structure ReadsBytes (s t : State) (bs : List Byte) : Prop where
  trace : t.trace = s.trace ++ bs.map fun b => .ret (.byte b)
  contents : s.rx.contents = bs ++ t.rx.contents
  counted : unacknowledged t = unacknowledged s + bs.length
  armed : t.txie = true ↔ s.txie = true ∨ Config.chunkSize ≤ s.fc.consumed.toNat + bs.length
  ready : ReadReady t

theorem ReadReady.withScript (h : ReadReady s) (l : List Input) : ReadReady (s.withScript l) :=
  ⟨h.admits, h.valid, h.consumed⟩

theorem ReadsBytes.of_withScript {l : List Input} (h : ReadsBytes (s.withScript l) t bs) : ReadsBytes s t bs :=
  ⟨h.trace, h.contents, h.counted, h.armed, h.ready⟩

theorem ReadsBytes.nil (h : ReadReady s) : ReadsBytes s s [] := by
  have hopen : ¬Config.chunkSize ≤ s.fc.consumed.toNat + ([] : List Byte).length := Nat.not_le.mpr h.consumed
  exact ⟨(List.append_nil _).symm, rfl, rfl, (or_iff_left hopen).symm, h⟩

/-- Both sequences together complete a chunk if the first does, or if the second does with what the first left counted. -/
theorem ReadsBytes.trans (hs : ReadReady s) (h : ReadsBytes s t bs) (h' : ReadsBytes t u cs) :
    ReadsBytes s u (bs ++ cs) := by
  have hopen := hs.consumed
  have hopen' := h.ready.consumed
  have hcount := h.counted
  simp only [unacknowledged, Config.chunkSize] at hcount hopen hopen'
  refine ⟨?_, ?_, ?_, ?_, h'.ready⟩
  · rw [h'.trace, h.trace, List.map_append, List.append_assoc]
  · rw [h.contents, h'.contents, List.append_assoc]
  · rw [h'.counted, h.counted, List.length_append, Nat.add_assoc]
  · rw [h'.armed, h.armed, List.length_append, or_assoc]
    refine or_congr_right ?_
    simp only [Config.chunkSize]
    omega

theorem ringPop_of_contents {C : Nat} {r : RingBuf C} (hC : C ≤ 256) (hr : r.valid) (h : r.contents = b :: bs) :
    ∃ q, r.pop = some (b, q) ∧ q.valid ∧ q.contents = bs := by
  cases hpop : r.pop with
  | none => simp [(ringIsEmpty_iff_contents hr).mp (ringPop_eq_none_iff.mp hpop)] at h
  | some item =>
    obtain ⟨c, q⟩ := item
    obtain ⟨rfl, hrest⟩ := List.cons.inj ((ringContents_of_pop hC hr hpop).symm.trans h)
    exact ⟨q, rfl, pop_valid hC hpop hr, hrest⟩

/-- R206, R207: with a byte there and room in the acknowledgment counter, a read takes the byte and the next read is
possible. -/
theorem exec_readByte_reads (h : ReadReady s) (hbytes : s.rx.contents = b :: bs)
    (hroom : unacknowledged s + 1 < Config.chunkSize * 256) :
    ∃ t, exec .readByte s = .next t ∧ ReadsBytes s t [b] ∧ t.rx.contents = bs ∧ t.script = s.script := by
  obtain ⟨q, hpop, hq, hrest⟩ := ringPop_of_contents (by decide) h.valid hbytes
  have hcontents : s.rx.contents = [b] ++ q.contents := by rw [hbytes, hrest, List.singleton_append]
  obtain ⟨hpartial, hfull, _⟩ := readByteTakesOldest s b q h.admits hpop
  have hopen := h.consumed
  by_cases hchunk : s.fc.consumed.toNat + 1 = Config.chunkSize
  · simp only [unacknowledged, Config.chunkSize] at hroom hchunk
    have hacks : s.fc.pendingAcks.toNat ≠ Config.pendingAcksMax := by
      simp only [Config.pendingAcksMax]
      omega
    have hcounted : Config.chunkSize * (s.fc.pendingAcks + 1).toNat + 0 = unacknowledged s + 1 := by
      simp only [unacknowledged, Config.chunkSize]
      bv_omega
    exact ⟨_, hfull hchunk hacks, ⟨rfl, hcontents, hcounted, iff_of_true rfl (.inr hchunk.ge),
      ⟨h.admits, hq, (by decide : 0 < 16)⟩⟩, hrest, rfl⟩
  · have hnext : (s.fc.consumed + 1).toNat = s.fc.consumed.toNat + 1 := by
      simp only [Config.chunkSize] at hopen
      bv_omega
    have hcounted : Config.chunkSize * s.fc.pendingAcks.toNat + (s.fc.consumed + 1).toNat = unacknowledged s + 1 := by
      rw [hnext]
      rfl
    have hopen' : s.fc.consumed.toNat + 1 < Config.chunkSize := Nat.lt_of_le_of_ne hopen hchunk
    exact ⟨_, hpartial hchunk, ⟨rfl, hcontents, hcounted, (or_iff_left (Nat.not_le.mpr hopen')).symm,
      ⟨h.admits, hq, hnext ▸ hopen'⟩⟩, hrest, rfl⟩

/-- R219: as many reads as bytes are asked for return them in order, by induction on these bytes. -/
theorem reads_in_order (bs : List Byte) (s : State) (h : ReadReady s) (hbytes : s.rx.contents = bs ++ cs)
    (hroom : unacknowledged s + bs.length < Config.chunkSize * 256)
    (hscript : s.script = List.replicate bs.length Instr.readByte.input ++ rest) :
    ∃ t, stepsRun bs.length s = .next t ∧ ReadsBytes s t bs ∧ t.script = rest := by
  induction bs generalizing s with
  | nil => exact ⟨s, rfl, .nil h, hscript⟩
  | cons b bs ih =>
    rw [List.length_cons] at hroom
    rw [List.length_cons, List.replicate_succ, List.cons_append] at hscript
    obtain ⟨u, hexec, hread, hrest, hscript'⟩ := exec_readByte_reads
      (h.withScript (List.replicate bs.length Instr.readByte.input ++ rest)) hbytes
      (Nat.lt_of_le_of_lt (Nat.add_le_add_left (Nat.le_add_left 1 bs.length) _) hroom)
    have hstep : step s = .next u := (step_of_input hscript rfl rfl).trans hexec
    have hroom' : unacknowledged u + bs.length < Config.chunkSize * 256 := by
      rwa [hread.of_withScript.counted, List.length_singleton, Nat.add_assoc, Nat.add_comm 1]
    obtain ⟨t, hrun, hreads, hscript''⟩ := ih u hread.ready hrest hroom' hscript'
    exact ⟨t, (stepsRun_of_step hstep _).trans hrun, hread.of_withScript.trans h hreads, hscript''⟩

/-- Settles O37: the reads return the first `n` bytes held, and as fewer than a chunk stay counted, what is not
acknowledged determines both counters. -/
theorem chunkAcknowledgments : Obligations.ChunkAcknowledgments := by
  intro s rest n hadmits hvalid hconsumed hn hroom
  have hready : ReadReady s := ⟨hadmits, hvalid, hconsumed⟩
  have hlength : (s.rx.contents.take n).length = n := List.length_take_of_le hn
  have hroom' : unacknowledged s + n < Config.chunkSize * 256 := by
    simp only [unacknowledged, Config.chunkSize, Config.pendingAcksMax] at hroom ⊢
    omega
  obtain ⟨t, hrun, hreads, hscript⟩ := reads_in_order (rest := rest) (s.rx.contents.take n) _
    (hready.withScript (List.replicate n Instr.readByte.input ++ rest)) (List.take_append_drop n s.rx.contents).symm
    (by rwa [hlength]) (by rw [hlength]; rfl)
  rw [hlength] at hrun
  have hreads := hreads.of_withScript
  have hcontents : t.rx.contents = s.rx.contents.drop n :=
    List.append_cancel_left (hreads.contents.symm.trans (List.take_append_drop n s.rx.contents).symm)
  have hopen := hreads.ready.consumed
  have hcounted := hreads.counted
  have harmed := hreads.armed
  rw [hlength] at hcounted harmed
  simp only [unacknowledged, Config.chunkSize] at hcounted hopen hconsumed
  refine ⟨t, hrun, hreads.trace, hcontents, ?_, ?_, ?_, hscript⟩
  · simp only [Config.chunkSize]
    omega
  · simp only [Config.chunkSize]
    omega
  · rw [Bool.eq_iff_iff, harmed, Bool.or_eq_true, decide_eq_true_iff]

end Sys2Proof.Proofs
end

section
/-! PROOFS. 42_serial_tx_flow.md R191, R201, R213 to R220: the operations that only answer (O38), `IDLE_RETURN` (O39), the
refusal of an issue without a free slot (O40), the transmit-ready handler (O41) and its acknowledgment stage (O42). -/

namespace Sys2Proof.Proofs

open Sys2Proof Sys2Proof.Machine

variable {s : State} {slot : SlotId} {b i : Byte} {q : RingBuf Config.txCap}

/-! ## Operations that only answer -/

/-- R192: an admitted operation whose only effect is its result. -/
theorem admitOp_ret (h : s.admits slot) (v : RetVal) :
    admitOp s (fun _ => .next (s.ret v)) = .next { s with trace := s.trace ++ [.ret v] } :=
  admitOp_of_admits h _

theorem limitLine_of_lt (l : InputLines) (h : i.toNat < 6) : limitLine l i = some (l.limit[i.toNat]'h) :=
  Vector.getElem?_eq_getElem h

theorem limitLine_of_ge (l : InputLines) (h : 6 ≤ i.toNat) : limitLine l i = none :=
  Vector.getElem?_eq_none h

/-- R265: an index that names a line answers its value. -/
theorem exec_readLimit_of_line {v : Bool} (h : s.admits slot) (hline : limitLine s.inp i = some v) :
    exec (.readLimit i) s = .next (s.ret (.bool v)) := by
  rw [exec, execReadLimit, admitOp_of_admits h, hline]

/-- R265: an index that names no line is refused. -/
theorem exec_readLimit_of_none (h : s.admits slot) (hline : limitLine s.inp i = none) :
    exec (.readLimit i) s = .next (s.recordRefusal .badLimitIndex) := by
  rw [exec, execReadLimit, admitOp_of_admits h, hline]
  rfl

/-- Settles O38. -/
theorem queriesAnswer : Obligations.QueriesAnswer := by
  intro s slot i h
  have hbytes : (!s.rx.isEmpty) = decide (s.rx.head ≠ s.rx.tail) := by
    rw [decide_not]
    rfl
  exact ⟨hbytes ▸ admitOp_ret h _, admitOp_ret h _, admitOp_ret h _,
    fun hi => exec_readLimit_of_line h (limitLine_of_lt s.inp hi),
    fun hi => exec_readLimit_of_none h (limitLine_of_ge s.inp hi)⟩

/-! ## Issues that are refused -/

/-- R191: in a live state the slot of an operation is the one the host may issue into. -/
theorem admissionSlot_eq_some_iff (hlive : s.live) : admissionSlot s = some slot ↔ s.admits slot := by
  cases slot with
  | top => exact admissionSlot_top.trans (and_iff_right hlive).symm
  | nested => exact admissionSlot_nested.trans (and_iff_right hlive).symm

/-- R191: an operation that may be issued into neither slot has none. -/
theorem admissionSlot_eq_none_of_busy (hlive : s.live) (htop : ¬s.admits .top) (hnested : ¬s.admits .nested) :
    admissionSlot s = none := by
  cases h : admissionSlot s with
  | none => rfl
  | some slot =>
    have hadmits := (admissionSlot_eq_some_iff hlive).mp h
    cases slot with
    | top => exact absurd hadmits htop
    | nested => exact absurd hadmits hnested

/-- Settles O39. -/
theorem idleReturnEndsCallback : Obligations.IdleReturnEndsCallback := by
  refine ⟨fun s h => ?_, fun s hlive h => ?_⟩
  · exact admitIdleReturn_next.mpr ⟨h.1, .inl ⟨admissionSlot_of_admits h, rfl⟩⟩
  · exact admitIdleReturn_next.mpr ⟨hlive, .inr ⟨fun hslot => h ((admissionSlot_eq_some_iff hlive).mp hslot), rfl⟩⟩

theorem admitOp_of_busy (hlive : s.live) (hbusy : admissionSlot s = none) (k : SlotId → Result) :
    admitOp s k = .next (s.recordRefusal .issueWhileBusy) :=
  admitOp_next.mpr ⟨hlive, .inr ⟨hbusy, rfl⟩⟩

/-- R191: `READ_BYTE` runs in the top slot alone. -/
theorem exec_readByte_of_not_top (hlive : s.live) (h : admissionSlot s ≠ some .top) :
    exec .readByte s = .next (s.recordRefusal .issueWhileBusy) :=
  admitTop_next.mpr ⟨hlive, .inr ⟨h, rfl⟩⟩

/-- R191: every other host operation but `IDLE_RETURN` is admitted to either slot, so all of them are refused alike. -/
theorem exec_op_of_busy {i : Instr} (hlive : s.live) (hbusy : admissionSlot s = none) (hop : formatOf i = .op)
    (hi : i ≠ .idleReturn) : exec i s = .next (s.recordRefusal .issueWhileBusy) := by
  cases i with
  | idleReturn => exact absurd rfl hi
  | readByte => exact exec_readByte_of_not_top hlive (by simp [hbusy])
  | sendByte | sendParam | bytesAvailable | setPulseDuration | setPulseFrequency | startRaster | setAir | setAux1
  | setAux2 | readDoor | readChiller | readLimit | initDone => exact admitOp_of_busy hlive hbusy _
  | rbPush | rbPop | rbIsEmpty | rbIsFull | rbLen | evRx | evTxReady | evTick | rxArrive | txDone | tick | inputSet
  | memWrite | rxReset | rxStop | rxResume | rxStatus | rxSuperstatus | rxInvalidMarker | rxPayload | txAck
  | txStatusEnd | txParamValue | txParamTag | txRaw => cases hop

/-- Settles O40. -/
theorem busyMainlineRefuses : Obligations.BusyMainlineRefuses := by
  refine ⟨fun i s hlive htop hnested hop hi => ?_, fun s h => ?_⟩
  · exact exec_op_of_busy hlive (admissionSlot_eq_none_of_busy hlive htop hnested) hop hi
  · exact exec_readByte_of_not_top h.1 (by simp [admissionSlot_of_admits h])

/-! ## The transmit-ready handler -/

/-- R283: an activation while the source is armed, the transmitter free and interrupts enabled. -/
theorem exec_evTxReady (hlive : s.live) (hgie : s.gie = true) (htxie : s.txie = true) (hfree : s.uart.txFree = true) :
    exec .evTxReady s = .next (txiBody s) :=
  enterHandler_next.mpr ⟨hlive, by simp [State.txiEnabled, hgie, htxie, hfree], rfl⟩

theorem isEmpty_eq_decide {C : Nat} (r : RingBuf C) : r.isEmpty = decide (r.head = r.tail) := rfl

/-- R216: the disarm test of an armed source on what is left after the byte was sent. -/
theorem disarm_of_armed (h : s.txie = true) :
    disarm s = { s with txie := !(decide (s.tx.head = s.tx.tail) && decide (s.fc.pendingAcks = 0)) } := by
  rw [disarm_eq, h, Bool.true_and]
  rfl

/-- R214: an acknowledgment goes before any buffered byte. -/
theorem txiBody_of_pending (h : s.fc.pendingAcks ≠ 0) : txiBody s = disarm (sendAck s) := by
  rw [txiBody, if_pos h]

/-- R215, R217: with no acknowledgment pending the oldest buffered byte goes. -/
theorem txiBody_of_no_pending (h : s.fc.pendingAcks = 0) : txiBody s = disarm (sendBuffered s) := by
  rw [txiBody, if_neg (not_not.mpr h)]

theorem sendBuffered_of_pop (h : s.tx.pop = some (b, q)) : sendBuffered s = ({ s with tx := q } : State).sendWire b := by
  rw [sendBuffered, h]

theorem sendBuffered_of_none (h : s.tx.pop = none) : sendBuffered s = s := by
  rw [sendBuffered, h]

/-- Settles O41: an acknowledgment, a buffered byte or nothing, and then the disarm test. -/
theorem evTxReadySends : Obligations.EvTxReadySends := by
  intro s hlive hgie htxie hfree
  rw [exec_evTxReady hlive hgie htxie hfree]
  refine ⟨rfl, fun hacks => ?_, fun b q hnone hpop => ?_, fun hnone hpop => ?_⟩
  · have hlast : s.fc.pendingAcks - 1 = 0 ↔ s.fc.pendingAcks = 1 := sub_eq_zero
    rw [txiBody_of_pending hacks, disarm_of_armed (s := sendAck s) htxie]
    simp only [← hlast]
    rfl
  · have harmed : (({ s with tx := q } : State).sendWire b).txie = true := htxie
    rw [txiBody_of_no_pending hnone, sendBuffered_of_pop hpop, disarm_of_armed harmed]
    simp only [State.sendWire_fc, hnone, decide_true, Bool.and_true]
    rfl
  · have hempty : s.tx.head = s.tx.tail := by simpa [isEmpty_eq_decide] using ringPop_eq_none_iff.mp hpop
    rw [txiBody_of_no_pending hnone, sendBuffered_of_none hpop, disarm_of_armed htxie]
    simp [hempty, hnone]

/-- Settles O42. -/
theorem ackStageCompletes : Obligations.AckStageCompletes := by
  intro s hlive hacks
  rw [exec, execTxAck, guardLive_of_live hlive, if_neg hacks]
  rfl

end Sys2Proof.Proofs
end

section
/-! PROOFS. 43_pulse_engine.md R230 to R241: the configuration operations (O44), one period of the timer (O45), scripts
of ticks (O46) and stretches of ticks. `afterTicks` is the engine after `n` ticks of which at most the first wraps:
`tick_of_wrap` and `tick_of_no_wrap` say this of one tick, `ticks_of_no_wrap` and `ticks_of_first_wrap` of a stretch.
O47 to O49 are read off these. -/

namespace Sys2Proof.Proofs

open Sys2Proof Sys2Proof.Machine

variable {s : State} {slot : SlotId} {m : Memory} {p : PulseEngine} {n : Nat} {rest : List Input}

/-! ## The configuration operations -/

/-- R232: a raster whose end fits in ADDR_W bits is accepted. -/
theorem exec_startRaster_of_fits {addr len : Addr} (h : s.admits slot) (hfits : rasterTooLong addr len = false) :
    exec (.startRaster addr len) s =
      .next { s with pe := { s.pe with cursor := addr, sentinel := addr + len, timer := 0xFFFF } } := by
  rw [exec, execStartRaster, admitOp_of_admits h, hfits]
  rfl

/-- R232: a raster whose end does not fit in ADDR_W bits is refused. -/
theorem exec_startRaster_of_too_long {addr len : Addr} (h : s.admits slot) (hlong : rasterTooLong addr len = true) :
    exec (.startRaster addr len) s = .next (s.recordRefusal .rasterRange) := by
  rw [exec, execStartRaster, admitOp_of_admits h, hlong]
  rfl

/-- Settles O44. -/
theorem pulseConfigurationCompletes : Obligations.PulseConfigurationCompletes := by
  intro s slot d f addr len h
  exact ⟨admitOp_of_admits h _, admitOp_of_admits h _,
    fun hfits => exec_startRaster_of_fits h (decide_eq_false (Nat.not_lt.mpr hfits)),
    fun hlong => exec_startRaster_of_too_long h (decide_eq_true hlong)⟩

/-! ## One tick -/

theorem pulseSum_toNat (p : PulseEngine) : p.sum.toNat = p.timer.toNat + p.frequency.toNat := by
  have htimer := p.timer.isLt
  have hstep := p.frequency.isLt
  simp only [PulseEngine.sum, BitVec.toNat_add, BitVec.toNat_setWidth]
  omega

/-- R234: the wraparound is the carry out of the 16-bit addition. -/
theorem pulseWraps_iff : p.wraps = true ↔ 2 ^ 16 ≤ p.timer.toNat + p.frequency.toNat := by
  have hcarry : p.wraps = p.sum.msb := (BitVec.msb_eq_getLsbD_last p.sum).symm
  rw [hcarry, BitVec.msb_eq_decide, pulseSum_toNat, decide_eq_true_iff]

theorem pulseWraps_eq_false_iff : p.wraps = false ↔ p.timer.toNat + p.frequency.toNat < 2 ^ 16 := by
  rw [← Bool.not_eq_true, pulseWraps_iff, Nat.not_le]

theorem pulseSum_setWidth (p : PulseEngine) : p.sum.setWidth 16 = p.timer + p.frequency := by
  apply BitVec.eq_of_toNat_eq
  rw [BitVec.toNat_setWidth, pulseSum_toNat, BitVec.toNat_add]

/-- The engine after `n` ticks of which at most the first wraps, when the first finds or loads the width `width` and
leaves the cursor at `cursor`: the accumulator has advanced `n` times and a high tick has been used up in each tick
while some remained. -/
def afterTicks (n : Nat) (width : Byte) (cursor : Addr) (p : PulseEngine) : PulseEngine :=
  { p with timer := p.timer + n * p.frequency, cursor := cursor, remaining := BitVec.ofNat 8 (width.toNat - n) }

/-- R233: the width that a wrapping tick loads. -/
def loadedWidth (m : Memory) (p : PulseEngine) : Byte :=
  if p.cursor ≠ p.sentinel then Memory.read m p.cursor.toNat else p.duration

/-- R233: the cursor after a wrapping tick. -/
def loadedCursor (p : PulseEngine) : Addr :=
  if p.cursor ≠ p.sentinel then p.cursor + 1 else p.cursor

theorem loadedWidth_of_raster (h : p.cursor ≠ p.sentinel) : loadedWidth m p = Memory.read m p.cursor.toNat := if_pos h

theorem loadedWidth_of_fixed (h : p.cursor = p.sentinel) : loadedWidth m p = p.duration := if_neg (not_not.mpr h)

theorem loadedCursor_of_raster (h : p.cursor ≠ p.sentinel) : loadedCursor p = p.cursor + 1 := if_pos h

theorem loadedCursor_of_fixed (h : p.cursor = p.sentinel) : loadedCursor p = p.cursor := if_neg (not_not.mpr h)

theorem afterTicks_one (width : Byte) (cursor : Addr) (p : PulseEngine) :
    afterTicks 1 width cursor p = { p with
      timer := p.timer + p.frequency, cursor := cursor, remaining := if width = 0 then 0 else width - 1 } := by
  have hcount : BitVec.ofNat 8 (width.toNat - 1) = if width = 0 then 0 else width - 1 := by
    split_ifs with h
    · simp [h]
    · bv_omega
  rw [afterTicks, hcount, Nat.cast_one, one_mul]

theorem pulseHigh_eq (p : PulseEngine) : p.high = decide (p.remaining ≠ 0) := by
  rw [decide_not]
  rfl

theorem pulseCountDown_eq (p : PulseEngine) :
    p.countDown = { p with remaining := if p.remaining = 0 then 0 else p.remaining - 1 } := by
  rw [PulseEngine.countDown, pulseHigh_eq]
  by_cases h : p.remaining = 0
  · rw [if_neg (by simp [h]), if_pos h, ← h]
  · rw [if_pos (decide_eq_true h), if_neg h]

/-- R233: the output and the count of a tick, once the accumulator has advanced. -/
theorem tick_of_advance {width : Byte} {cursor : Addr}
    (h : p.advance m = { p with timer := p.timer + p.frequency, cursor := cursor, remaining := width }) :
    p.tick m = (afterTicks 1 width cursor p, decide (width ≠ 0)) := by
  rw [PulseEngine.tick, h, afterTicks_one, pulseCountDown_eq, pulseHigh_eq]

/-- R233: a tick without a wraparound loads nothing. -/
theorem tick_of_no_wrap (h : p.timer.toNat + p.frequency.toNat < 2 ^ 16) :
    p.tick m = (afterTicks 1 p.remaining p.cursor p, decide (p.remaining ≠ 0)) :=
  tick_of_advance (by simp [PulseEngine.advance, pulseWraps_eq_false_iff.mpr h, pulseSum_setWidth])

/-- R233: a wrapping tick loads the raster byte at the cursor, or the fixed duration. -/
theorem tick_of_wrap (h : 2 ^ 16 ≤ p.timer.toNat + p.frequency.toNat) :
    p.tick m = (afterTicks 1 (loadedWidth m p) (loadedCursor p) p, decide (loadedWidth m p ≠ 0)) := by
  refine tick_of_advance ?_
  rw [PulseEngine.advance, pulseWraps_iff.mpr h, pulseSum_setWidth]
  by_cases hfixed : p.cursor = p.sentinel
  · rw [loadedWidth_of_fixed hfixed, loadedCursor_of_fixed hfixed]
    simp [PulseEngine.load, PulseEngine.rasterActive, hfixed]
  · rw [loadedWidth_of_raster hfixed, loadedCursor_of_raster hfixed]
    simp [PulseEngine.load, PulseEngine.rasterActive, memRead, hfixed]

/-! ## One activation of the periodic handler -/

/-- R284: an activation while a tick is pending and interrupts are enabled. -/
theorem exec_evTick (hlive : s.live) (hgie : s.gie = true) (htick : s.tickPending = true) :
    exec .evTick s = .next (tmiBody s) :=
  enterHandler_next.mpr ⟨hlive, by simp [State.tmiEnabled, hgie, htick], rfl⟩

/-- R233: what the handler writes is its tick. -/
theorem tmiBody_of_tick {width : Byte} {cursor : Addr}
    (h : s.pe.tick s.mem = (afterTicks 1 width cursor s.pe, decide (width ≠ 0))) :
    tmiBody s = { s with
      tickPending := false
      pe := { s.pe with
        timer := s.pe.timer + s.pe.frequency, cursor := cursor, remaining := if width = 0 then 0 else width - 1 }
      laserOut := decide (width ≠ 0)
      trace := s.trace ++ [.laser (decide (width ≠ 0))] } := by
  rw [← afterTicks_one, tmiBody, h]
  rfl

/-- Settles O45: a tick that does not wrap, one that loads a raster byte and one that loads the fixed duration. -/
theorem evTickRunsOnePeriod : Obligations.EvTickRunsOnePeriod := by
  intro s width cursor hlive hgie htick hload
  refine ⟨rfl, (exec_evTick hlive hgie htick).trans (congrArg _ (tmiBody_of_tick ?_))⟩
  rcases hload with ⟨hstay, rfl, rfl⟩ | ⟨hwrap, hraster, rfl, rfl⟩ | ⟨hwrap, hfixed, rfl, rfl⟩
  · exact tick_of_no_wrap hstay
  · rw [tick_of_wrap hwrap, loadedWidth_of_raster hraster, loadedCursor_of_raster hraster]
  · rw [tick_of_wrap hwrap, loadedWidth_of_fixed hfixed, loadedCursor_of_fixed hfixed]

/-! ## Scripts of ticks -/

/-- R287: `TICK` while no tick is pending. -/
theorem step_tick (hlive : s.live) (hgie : s.gie = true) (htick : s.tickPending = false)
    (hscript : s.script = Instr.tick.input :: rest) :
    step s = .next { s.withScript rest with tickPending := true } := by
  rw [step_of_input hscript rfl rfl]
  exact admitEvent_next.mpr ⟨hlive, hgie, by simp [htick]⟩

/-- R284: `RUN TMI` while a tick is pending. -/
theorem step_runTmi (hlive : s.live) (hgie : s.gie = true) (htick : s.tickPending = true)
    (hscript : s.script = Instr.evTick.input :: rest) :
    step s = .next (tmiBody (s.withScript rest)) := by
  rw [step_of_input hscript rfl rfl]
  exact exec_evTick (s := s.withScript rest) hlive hgie htick

theorem scriptOf_ticksLines_succ (n : Nat) :
    scriptOf (ticksLines (n + 1)) = Instr.tick.input :: Instr.evTick.input :: scriptOf (ticksLines n) := by
  rw [ticksLines, List.replicate_succ]
  rfl

/-- R233, R287: `TICK` and `RUN TMI` are one activation of the handler, which takes the pending tick away again. -/
theorem stepsRun_tick_round (hlive : s.live) (hgie : s.gie = true) (htick : s.tickPending = false)
    (hscript : s.script = Instr.tick.input :: Instr.evTick.input :: rest) (n : Nat) :
    stepsRun (n + 2) s = stepsRun n (tmiBody (s.withScript rest)) := by
  have htmi := step_runTmi (s := { s.withScript (Instr.evTick.input :: rest) with tickPending := true })
    hlive hgie rfl rfl
  rw [stepsRun_of_step (step_tick hlive hgie htick hscript), stepsRun_of_step htmi]
  rfl

/-- `s` after the engine has run for `n` ticks, the script `rest` still to run. -/
def withTicks (n : Nat) (rest : List Input) (s : State) : State :=
  { s with
    pe := (PulseEngine.ticks s.mem n s.pe).2
    laserOut := (PulseEngine.ticks s.mem n s.pe).1.getLast?.getD s.laserOut
    trace := s.trace ++ (PulseEngine.ticks s.mem n s.pe).1.map .laser
    script := rest }

/-- The first tick of a stretch is an activation of the handler. -/
theorem withTicks_succ (htick : s.tickPending = false) (n : Nat) (l : List Input) :
    withTicks n rest (tmiBody (s.withScript l)) = withTicks (n + 1) rest s := by
  simp [withTicks, tmiBody, State.emit, State.withScript, PulseEngine.ticks, List.getLast?_cons, htick]

/-- Settles O46, by induction on the number of rounds. -/
theorem ticksDriveEngine : Obligations.TicksDriveEngine := by
  intro s rest n hlive hgie htick
  change _ = Host.Outcome.next (withTicks n rest s)
  induction n generalizing s with
  | zero => simp [stepsRun, withTicks, State.withScript, ticksLines, scriptOf, PulseEngine.ticks]
  | succ n ih =>
    let script := scriptOf (ticksLines n) ++ rest
    rw [scriptOf_ticksLines_succ, ← withTicks_succ htick n script]
    calc stepsRun (2 * (n + 1)) (s.withScript (Instr.tick.input :: Instr.evTick.input :: script))
      _ = stepsRun (2 * n) (tmiBody (s.withScript script)) :=
        stepsRun_tick_round (s := s.withScript (Instr.tick.input :: Instr.evTick.input :: script))
          hlive hgie htick rfl (2 * n)
      _ = .next (withTicks n rest (tmiBody (s.withScript script))) :=
        ih (tmiBody (s.withScript script)) hlive hgie rfl

/-! ## Stretches of ticks -/

@[simp] theorem periodLevels_zero (w : Nat) : periodLevels 0 w = [] := by
  simp [periodLevels]

/-- R239: the first level of a period is high exactly when the width is not 0. -/
theorem periodLevels_succ (n w : Nat) : periodLevels (n + 1) w = decide (w ≠ 0) :: periodLevels n (w - 1) := by
  cases w with
  | zero => simp [periodLevels, List.replicate_succ]
  | succ w => simp [periodLevels, List.replicate_succ]

theorem pulseTicks_add (a b : Nat) (p : PulseEngine) :
    PulseEngine.ticks m (a + b) p =
      ((PulseEngine.ticks m a p).1 ++ (PulseEngine.ticks m b (PulseEngine.ticks m a p).2).1,
        (PulseEngine.ticks m b (PulseEngine.ticks m a p).2).2) := by
  induction a generalizing p with
  | zero => simp [PulseEngine.ticks]
  | succ a ih => simp [Nat.succ_add, PulseEngine.ticks, ih]

theorem afterTicks_timer_toNat (n : Nat) (width : Byte) (cursor : Addr) (p : PulseEngine) :
    (afterTicks n width cursor p).timer.toNat = (p.timer.toNat + n * p.frequency.toNat) % 2 ^ 16 := by
  simp [afterTicks, BitVec.toNat_add, BitVec.toNat_mul]

theorem afterTicks_remaining_toNat (n : Nat) (width : Byte) (cursor : Addr) (p : PulseEngine) :
    (afterTicks n width cursor p).remaining.toNat = width.toNat - n := by
  have hwidth := width.isLt
  rw [afterTicks, BitVec.toNat_ofNat]
  exact Nat.mod_eq_of_lt (by omega)

theorem afterTicks_zero (p : PulseEngine) : afterTicks 0 p.remaining p.cursor p = p := by
  simp [afterTicks]

/-- A stretch goes on from the width and the cursor that its first tick left. -/
theorem afterTicks_afterTicks_one (n : Nat) (width : Byte) (cursor : Addr) (p : PulseEngine) :
    afterTicks n (afterTicks 1 width cursor p).remaining cursor (afterTicks 1 width cursor p) =
      afterTicks (n + 1) width cursor p := by
  have htimer : p.timer + (1 : Nat) * p.frequency + n * p.frequency = p.timer + (n + 1 : Nat) * p.frequency := by
    push_cast
    ring
  have hcount : width.toNat - 1 - n = width.toNat - (n + 1) := by omega
  rw [afterTicks, afterTicks_remaining_toNat, hcount]
  simp only [afterTicks, htimer]

/-- A stretch whose first tick finds or loads `width`, and whose other ticks count down what it left. -/
theorem ticks_succ_of_tick {width : Byte} {cursor : Addr}
    (htick : p.tick m = (afterTicks 1 width cursor p, decide (width ≠ 0)))
    (hrest : PulseEngine.ticks m n (afterTicks 1 width cursor p) =
      (periodLevels n (afterTicks 1 width cursor p).remaining.toNat,
        afterTicks n (afterTicks 1 width cursor p).remaining cursor (afterTicks 1 width cursor p))) :
    PulseEngine.ticks m (n + 1) p = (periodLevels (n + 1) width.toNat, afterTicks (n + 1) width cursor p) := by
  have hhigh : decide (width.toNat ≠ 0) = decide (width ≠ 0) := decide_eq_decide.mpr (BitVec.toNat_ne_iff_ne (y := 0))
  rw [afterTicks_afterTicks_one, afterTicks_remaining_toNat] at hrest
  rw [PulseEngine.ticks, htick, hrest, periodLevels_succ, hhigh]

/-- R239: while no tick wraps, the output counts the remaining ticks down. -/
theorem ticks_of_no_wrap (h : p.timer.toNat + n * p.frequency.toNat < 2 ^ 16) :
    PulseEngine.ticks m n p = (periodLevels n p.remaining.toNat, afterTicks n p.remaining p.cursor p) := by
  induction n generalizing p with
  | zero => simp [PulseEngine.ticks, afterTicks_zero]
  | succ n ih =>
    have hsum : p.timer.toNat + p.frequency.toNat + n * p.frequency.toNat < 2 ^ 16 := by linarith
    have hfirst := Nat.lt_of_le_of_lt (Nat.le_add_right _ _) hsum
    refine ticks_succ_of_tick (tick_of_no_wrap hfirst) (ih ?_)
    rwa [afterTicks_timer_toNat, one_mul, Nat.mod_eq_of_lt hfirst]

/-- R239: while only the first tick wraps, the output counts the loaded width down. -/
theorem ticks_of_first_wrap (hn : 1 ≤ n) (hwrap : 2 ^ 16 ≤ p.timer.toNat + p.frequency.toNat)
    (honce : p.timer.toNat + n * p.frequency.toNat < 2 * 2 ^ 16) :
    PulseEngine.ticks m n p =
      (periodLevels n (loadedWidth m p).toNat, afterTicks n (loadedWidth m p) (loadedCursor p) p) := by
  obtain ⟨n, rfl⟩ := Nat.exists_eq_add_of_le' hn
  have hsum : p.timer.toNat + p.frequency.toNat + n * p.frequency.toNat < 2 * 2 ^ 16 := by linarith
  refine ticks_succ_of_tick (tick_of_wrap hwrap) (ticks_of_no_wrap ?_)
  have hfrequency : (afterTicks 1 (loadedWidth m p) (loadedCursor p) p).frequency = p.frequency := rfl
  rw [afterTicks_timer_toNat, hfrequency]
  omega

/-- Settles O47. -/
theorem pulseWidthLevels : Obligations.PulseWidthLevels := by
  rintro m p n w hn hwrap honce rfl
  exact congrArg Prod.fst (ticks_of_first_wrap hn hwrap honce)

/-! ## Rasters -/

/-- R238: a period of a step that divides 2^16 brings the accumulator back to its value. -/
theorem afterTicks_period (hdvd : p.frequency.toNat ∣ 2 ^ 16) (width : Byte) (cursor : Addr) :
    afterTicks (2 ^ 16 / p.frequency.toNat) width cursor p =
      { p with cursor := cursor, remaining := BitVec.ofNat 8 (width.toNat - 2 ^ 16 / p.frequency.toNat) } := by
  have htimer : (afterTicks (2 ^ 16 / p.frequency.toNat) width cursor p).timer = p.timer := by
    apply BitVec.eq_of_toNat_eq
    rw [afterTicks_timer_toNat, Nat.div_mul_cancel hdvd, Nat.add_mod_right, Nat.mod_eq_of_lt p.timer.isLt]
  conv_rhs => rw [← htimer]
  rfl

/-- R238, R239: with a step that divides 2^16, a period that begins with a wrap shows the loaded width, moves the cursor
as the load does and keeps the accumulator, so that the next period begins with a wrap too. -/
theorem ticks_period (hdvd : p.frequency.toNat ∣ 2 ^ 16) (hwrap : 2 ^ 16 ≤ p.timer.toNat + p.frequency.toNat) :
    ∃ remaining, PulseEngine.ticks m (2 ^ 16 / p.frequency.toNat) p =
      (periodLevels (2 ^ 16 / p.frequency.toNat) (loadedWidth m p).toNat,
        { p with cursor := loadedCursor p, remaining := remaining }) := by
  have hperiod := Nat.div_mul_cancel hdvd
  have htimer := p.timer.isLt
  have hpos : 1 ≤ 2 ^ 16 / p.frequency.toNat := Nat.div_pos (Nat.le_of_dvd (by decide) hdvd) (by omega)
  rw [ticks_of_first_wrap hpos hwrap (by omega), afterTicks_period hdvd]
  exact ⟨_, rfl⟩

/-- The first of `k + 1` such periods, and the others. -/
theorem levels_of_periods_succ (k : Nat) (hdvd : p.frequency.toNat ∣ 2 ^ 16)
    (hwrap : 2 ^ 16 ≤ p.timer.toNat + p.frequency.toNat) :
    ∃ remaining, (PulseEngine.ticks m ((k + 1) * (2 ^ 16 / p.frequency.toNat)) p).1 =
      periodLevels (2 ^ 16 / p.frequency.toNat) (loadedWidth m p).toNat ++
        (PulseEngine.ticks m (k * (2 ^ 16 / p.frequency.toNat))
          { p with cursor := loadedCursor p, remaining := remaining }).1 := by
  obtain ⟨remaining, hperiod⟩ := ticks_period (m := m) hdvd hwrap
  refine ⟨remaining, ?_⟩
  rw [Nat.succ_mul, Nat.add_comm, pulseTicks_add, hperiod]

/-- R240: with no raster active, `k` periods show the fixed duration `k` times. -/
theorem fixed_levels (k : Nat) (p : PulseEngine) (hdvd : p.frequency.toNat ∣ 2 ^ 16)
    (hwrap : 2 ^ 16 ≤ p.timer.toNat + p.frequency.toNat) (hfixed : p.cursor = p.sentinel) :
    (PulseEngine.ticks m (k * (2 ^ 16 / p.frequency.toNat)) p).1 =
      (List.replicate k p.duration).flatMap fun w => periodLevels (2 ^ 16 / p.frequency.toNat) w.toNat := by
  induction k generalizing p with
  | zero => simp [PulseEngine.ticks]
  | succ k ih =>
    obtain ⟨remaining, hlevels⟩ := levels_of_periods_succ (m := m) k hdvd hwrap
    have hrest := ih { p with cursor := p.cursor, remaining := remaining } hdvd hwrap hfixed
    rw [hlevels, loadedWidth_of_fixed hfixed, loadedCursor_of_fixed hfixed, hrest,
      List.replicate_succ, List.flatMap_cons]

/-- R236, R241: the raster's periods come first, by induction on the bytes that the cursor has still to pass; the fixed
ones follow once it has reached the end. -/
theorem raster_levels (ws : List Byte) (k : Nat) (p : PulseEngine) (hdvd : p.frequency.toNat ∣ 2 ^ 16)
    (hwrap : 2 ^ 16 ≤ p.timer.toNat + p.frequency.toNat) (hend : p.cursor.toNat + ws.length = p.sentinel.toNat)
    (hbytes : ∀ j w, ws[j]? = some w → Memory.read m (p.cursor.toNat + j) = w) :
    (PulseEngine.ticks m ((ws.length + k) * (2 ^ 16 / p.frequency.toNat)) p).1 =
      (ws ++ List.replicate k p.duration).flatMap fun w => periodLevels (2 ^ 16 / p.frequency.toNat) w.toNat := by
  induction ws generalizing p with
  | nil =>
    rw [List.length_nil, Nat.zero_add, List.nil_append]
    exact fixed_levels k p hdvd hwrap (BitVec.eq_of_toNat_eq hend)
  | cons w ws ih =>
    rw [List.length_cons] at hend ⊢
    have hraster : p.cursor ≠ p.sentinel := by
      intro h
      rw [h] at hend
      omega
    have hnext : (p.cursor + 1).toNat = p.cursor.toNat + 1 := by
      have hsentinel := p.sentinel.isLt
      bv_omega
    obtain ⟨remaining, hlevels⟩ := levels_of_periods_succ (m := m) (ws.length + k) hdvd hwrap
    have hfirst : Memory.read m p.cursor.toNat = w := hbytes 0 w rfl
    have hrest := ih { p with cursor := p.cursor + 1, remaining := remaining } hdvd hwrap
      (by rw [hnext, ← hend, Nat.add_right_comm, Nat.add_assoc])
      fun j v hv => by rw [hnext, Nat.add_right_comm, Nat.add_assoc]; exact hbytes (j + 1) v hv
    rw [Nat.add_right_comm, hlevels, loadedWidth_of_raster hraster, loadedCursor_of_raster hraster, hfirst, hrest,
      List.cons_append, List.flatMap_cons]

/-- Settles O48. -/
theorem rasterThenFixedLevels : Obligations.RasterThenFixedLevels := by
  intro m p ws k _ hdvd hwrap hend hbytes _ _
  exact raster_levels ws k p hdvd hwrap hend hbytes

/-! ## The spacing of wraps -/

/-- R237: with step 0 a stretch of ticks counts the remaining ticks down and loads nothing. -/
theorem ticks_of_step_zero (h : p.frequency = 0) (n : Nat) :
    PulseEngine.ticks m n p = (periodLevels n p.remaining.toNat, afterTicks n p.remaining p.cursor p) :=
  ticks_of_no_wrap (by simpa [h] using p.timer.isLt)

/-- R238: until a wrap the accumulator counts the steps, so the tick that wraps is the one that brings the sum to
2^16. -/
theorem wraps_after_ticks (h : p.timer.toNat + n * p.frequency.toNat < 2 ^ 16) :
    (PulseEngine.ticks m n p).2.wraps = decide (2 ^ 16 ≤ p.timer.toNat + (n + 1) * p.frequency.toNat) := by
  have hfrequency : (afterTicks n p.remaining p.cursor p).frequency = p.frequency := rfl
  rw [ticks_of_no_wrap h, Bool.eq_iff_iff, pulseWraps_iff, decide_eq_true_iff, afterTicks_timer_toNat, hfrequency,
    Nat.mod_eq_of_lt h, Nat.succ_mul, Nat.add_assoc]

/-- R238: the tick, counted from 1, that brings the sum of the accumulator and the steps to 2^16. -/
def ticksToWrap (p : PulseEngine) : Nat := (2 ^ 16 - p.timer.toNat) ⌈/⌉ p.frequency.toNat

theorem ticksToWrap_le_iff (hpos : 0 < p.frequency.toNat) :
    ticksToWrap p ≤ n ↔ 2 ^ 16 ≤ p.timer.toNat + n * p.frequency.toNat := by
  rw [ticksToWrap, ceilDiv_le_iff_le_mul hpos, Nat.mul_comm, Nat.sub_le_iff_le_add']

theorem ticksToWrap_pos (hpos : 0 < p.frequency.toNat) : 0 < ticksToWrap p := by
  have htimer := p.timer.isLt
  rw [Nat.pos_iff_ne_zero, Ne, ← Nat.le_zero, ticksToWrap_le_iff hpos]
  omega

/-- R238: up to the tick that wraps, the next tick wraps exactly when it is that one. -/
theorem wraps_iff_ticksToWrap (hpos : 0 < p.frequency.toNat) (hn : n < ticksToWrap p) :
    (PulseEngine.ticks m n p).2.wraps = decide (ticksToWrap p ≤ n + 1) := by
  have hsum : p.timer.toNat + n * p.frequency.toNat < 2 ^ 16 := by
    rwa [← Nat.not_le, ticksToWrap_le_iff hpos, Nat.not_le] at hn
  rw [wraps_after_ticks hsum, decide_eq_decide, ticksToWrap_le_iff hpos]

/-- Settles O49: with step 0 nothing is loaded; with a step the wrap comes with the tick `ticksToWrap p`, which lies
between the two bounds because the accumulator is below the step. -/
theorem wrapSpacing : Obligations.WrapSpacing := by
  refine ⟨fun m p n h => ?_, fun m p hbelow => ?_⟩
  · rw [ticks_of_step_zero h]
    exact ⟨by simp [afterTicks, h], rfl, rfl⟩
  · have hpos : 0 < p.frequency.toNat := Nat.zero_lt_of_lt hbelow
    have hk := ticksToWrap_pos hpos
    refine ⟨ticksToWrap p, hk, Nat.div_le_div_right (by omega), Nat.div_le_div_right (by omega), fun j hj => ?_, ?_⟩
    · rw [wraps_iff_ticksToWrap hpos (Nat.lt_of_succ_lt hj)]
      exact decide_eq_false (Nat.not_le.mpr hj)
    · rw [wraps_iff_ticksToWrap hpos (Nat.sub_lt hk Nat.one_pos)]
      exact decide_eq_true (Nat.le_add_of_sub_le le_rfl)

end Sys2Proof.Proofs
end

section
/-! PROOFS. 44_control_io.md R260 to R262: the assist outputs (O50). -/

namespace Sys2Proof.Proofs

open Sys2Proof Sys2Proof.Machine

/-- Settles O50: the selectors are the first bytes of the encodings; each operation is a single write under the shared
admission rule, so in either slot that admits it (R191) that write is all it does. -/
theorem outputLinesAreDriven : Obligations.OutputLinesAreDriven := by
  intro s slot v h
  exact ⟨rfl, rfl, rfl, admitOp_of_admits h _, admitOp_of_admits h _, admitOp_of_admits h _⟩

end Sys2Proof.Proofs
end

section
/-! PROOFS. 60_exceptions.md: the transition that a script line chooses (O1), the environment's events (O52, O53, O54),
and the two ways in which a transition does not exist: every instruction passes the guard of R301 and R302
(`exec_eq_guardLive`, O55), and an agent that is not enabled or not admitted has no step (O57). -/

namespace Sys2Proof.Proofs

open Sys2Proof Sys2Proof.Machine

variable {s : State} {f : Format} {bytes more : List Byte} {rest : List Input} {i : Instr}

/-! ## The transition that a line chooses -/

/-- R280: a line that decodes to an instruction; the rows that are steps inside a transition run on the bench alone
(log 4). -/
theorem step_of_instr (hscript : s.script = .code f bytes :: rest) (hdecode : decode f bytes = .instr i more) :
    step s = if isTransition i || s.bench then exec i (s.withScript rest) else refuseInner (s.withScript rest) := by
  simp only [step, fetch, hscript, hdecode]
  split_ifs
  · rfl
  · rfl

theorem step_of_reject {e : DecodeError} (hscript : s.script = .code f bytes :: rest)
    (hdecode : decode f bytes = .reject e) : step s = rejectUnit e (s.withScript rest) := by
  simp only [step, fetch, hscript, hdecode]

theorem step_of_no_line (hscript : s.script = []) : step s = awaitChoice s := by
  simp only [step, fetch, hscript]

/-- Settles O1: on the bench or for a whole transition the line runs; otherwise the live state refuses it. -/
theorem stepRunsDecodedInstruction : Obligations.StepRunsDecodedInstruction := by
  intro s f bytes more rest i hscript hdecode _
  rw [step_of_instr hscript hdecode]
  refine ⟨fun hrun => if_pos (by simpa using hrun), fun hinner hbench hlive => ?_⟩
  rw [if_neg (by simp [hinner, hbench])]
  exact guardLive_of_live (s := s.withScript rest) hlive _

/-! ## The environment's events -/

/-- Settles O52: each event is admitted, and the flag it finds chooses the branch. -/
theorem linkAndTimerEvents : Obligations.LinkAndTimerEvents := by
  intro s b hlive
  refine ⟨fun hgie hempty => ?_, fun hgie hfull => ?_, fun hbusy => ?_, fun hgie hnone => ?_, fun hgie hpending => ?_⟩
  · exact admitEvent_next.mpr ⟨hlive, hgie, by simp [hempty]⟩
  · exact admitEvent_next.mpr ⟨hlive, hgie, by simp [hfull]⟩
  · exact admitEvent_next.mpr ⟨hlive, by simp [hbusy], rfl⟩
  · exact admitEvent_next.mpr ⟨hlive, hgie, by simp [hnone]⟩
  · exact admitEvent_next.mpr ⟨hlive, hgie, by rw [if_pos hpending, raise, recordFault_of_live hlive]⟩

/-- R297: an input line changes at any step. -/
theorem exec_inputSet (hlive : s.live) (line : InputLine) (v : Bool) :
    exec (.inputSet line v) s = .next { s with inp := setInputLine s.inp line v } :=
  admitEvent_next.mpr ⟨hlive, rfl, rfl⟩

/-- Settles O53: a limit switch is one entry of the vector of R52, set in place. -/
theorem inputLinesAreSet : Obligations.InputLinesAreSet := by
  intro s i v hlive
  refine ⟨exec_inputSet hlive .door v, exec_inputSet hlive .chiller v,
    s.inp.limit.set i.val v, exec_inputSet hlive (.limit i) v, ?_, fun j hj => ?_⟩
  · exact Vector.getElem_set_self i.isLt
  · exact Vector.getElem_set_ne i.isLt j.isLt fun h => hj (Fin.ext h.symm)

/-- R47, R90: the addresses from the cursor to the end, while the cursor has not reached the end. -/
theorem inRasterWindow_iff {p : PulseEngine} {addr : Addr} : inRasterWindow p addr = true ↔
    p.cursor ≠ p.sentinel ∧ p.cursor.toNat ≤ addr.toNat ∧ addr.toNat < p.sentinel.toNat := by
  simp [inRasterWindow, PulseEngine.rasterActive, and_assoc]

theorem exec_memWrite_outside {addr : Addr} (hlive : s.live) (hout : ¬inRasterWindow s.pe addr = true) (v : Byte) :
    exec (.memWrite addr v) s = .next { s with mem := memWrite s.mem addr v } :=
  admitEvent_next.mpr ⟨hlive, rfl, if_neg hout⟩

theorem exec_memWrite_inside {addr : Addr} (hlive : s.live) (hin : inRasterWindow s.pe addr = true) (v : Byte) :
    exec (.memWrite addr v) s = .next { s with faults := [.rasterBufferMutated] } :=
  admitEvent_next.mpr ⟨hlive, rfl, by rw [if_pos hin, raise, recordFault_of_live hlive]⟩

/-- Settles O54: outside the window the new memory is `memWrite` of the old one, whose reads the laws of memory give. -/
theorem memWriteStoresOrFaults : Obligations.MemWriteStoresOrFaults := by
  intro s addr v hlive
  refine ⟨fun hout => ?_, fun hactive hlo hhi => ?_⟩
  · exact ⟨memWrite s.mem addr v, exec_memWrite_outside hlive (mt inRasterWindow_iff.mp hout) v,
      Memory.read_write_same s.mem addr.toNat v, fun _ ha => Memory.read_write_other s.mem v ha⟩
  · exact exec_memWrite_inside hlive (inRasterWindow_iff.mpr ⟨hactive, hlo, hhi⟩) v

/-! ## Quiescent states -/

/-- R301, R302: the guard lets nothing pass once a fault or a refusal is recorded. -/
theorem guardLive_of_stopped (h : s.faults ≠ [] ∨ s.refused = true) (k : Result) : ∃ r, guardLive s k = .fault r := by
  cases hfaults : s.faults with
  | cons r faults => exact ⟨_, guardLive_fault hfaults k⟩
  | nil => exact ⟨_, guardLive_refused hfaults (h.resolve_left (not_not.mpr hfaults)) k⟩

/-- R301, R302: every instruction, of whichever agent, is something under the guard. -/
theorem exec_eq_guardLive (i : Instr) (s : State) : ∃ k, exec i s = guardLive s k := by
  cases i with
  | sendByte | sendParam | readByte | bytesAvailable | idleReturn | setPulseDuration | setPulseFrequency | startRaster
  | setAir | setAux1 | setAux2 | readDoor | readChiller | readLimit | initDone => exact ⟨_, rfl⟩
  | evRx | evTxReady | evTick => exact ⟨_, rfl⟩
  | rxArrive | txDone | tick | inputSet | memWrite => exact ⟨_, rfl⟩
  | rbPush | rbPop | rbIsEmpty | rbIsFull | rbLen => exact ⟨_, rfl⟩
  | rxReset | rxStop | rxResume | rxStatus | rxSuperstatus | rxInvalidMarker | rxPayload => exact ⟨_, rfl⟩
  | txAck | txStatusEnd | txParamValue | txParamTag | txRaw => exact ⟨_, rfl⟩

/-- R280: every kind of line, and the empty script, leads to something under the guard. The guard reads no script, so it
answers the same with the line taken off. -/
theorem step_eq_guardLive (s : State) : ∃ k, step s = guardLive s k := by
  cases hscript : s.script with
  | nil => exact ⟨_, step_of_no_line hscript⟩
  | cons line rest =>
    cases line with
    | runMain => exact ⟨_, stepWithoutInstruction.1 s rest hscript⟩
    | code f bytes =>
      cases hdecode : decode f bytes with
      | reject e => exact ⟨_, step_of_reject (rest := rest) hscript hdecode⟩
      | instr i more =>
        rw [step_of_instr hscript hdecode]
        split_ifs
        · exact exec_eq_guardLive i (s.withScript rest)
        · exact ⟨_, rfl⟩

/-- Settles O55: everything a step can be is under the guard, which a recorded stop closes. -/
theorem quiescentForGood : Obligations.QuiescentForGood := by
  intro s hstopped
  refine ⟨fun i => ?_, guardLive_of_stopped hstopped _, ?_⟩
  · obtain ⟨k, hk⟩ := exec_eq_guardLive i s
    exact hk ▸ guardLive_of_stopped hstopped k
  · obtain ⟨k, hk⟩ := step_eq_guardLive s
    exact hk ▸ guardLive_of_stopped hstopped k

/-! ## Agents without a step -/

/-- R282 to R284: a handler that is not enabled has no step. -/
theorem enterHandler_of_disabled {enabled : Bool} (hlive : s.live) (h : enabled = false) (body : State → State) :
    enterHandler enabled body s = .refused .notEnabled := by
  rw [enterHandler, guardLive_of_live hlive, h]
  rfl

/-- R285 to R287: an event that is not admitted has no step. -/
theorem admitEvent_of_not_admitted {admitted : Bool} (hlive : s.live) (h : admitted = false) (k : Result) :
    admitEvent admitted k s = .refused .notEnabled := by
  rw [admitEvent, guardLive_of_live hlive, h]
  rfl

theorem exec_evRx_of_disabled (hlive : s.live) (h : s.rxiEnabled = false) : exec .evRx s = .refused .notEnabled :=
  enterHandler_of_disabled hlive h _

theorem exec_evTxReady_of_disabled (hlive : s.live) (h : s.txiEnabled = false) :
    exec .evTxReady s = .refused .notEnabled :=
  enterHandler_of_disabled hlive h _

theorem exec_evTick_of_disabled (hlive : s.live) (h : s.tmiEnabled = false) : exec .evTick s = .refused .notEnabled :=
  enterHandler_of_disabled hlive h _

/-- R282 to R285, R287: the instructions that need interrupts enabled. -/
theorem exec_of_gie_clear {b : Byte} (hlive : s.live) (hgie : s.gie = false)
    (hi : i ∈ [.evRx, .evTxReady, .evTick, .rxArrive b, .tick]) : exec i s = .refused .notEnabled := by
  simp only [List.mem_cons, List.not_mem_nil, or_false] at hi
  rcases hi with rfl | rfl | rfl | rfl | rfl
  · exact exec_evRx_of_disabled hlive (by simp [State.rxiEnabled, hgie])
  · exact exec_evTxReady_of_disabled hlive (by simp [State.txiEnabled, hgie])
  · exact exec_evTick_of_disabled hlive (by simp [State.tmiEnabled, hgie])
  · exact admitEvent_of_not_admitted hlive hgie _
  · exact admitEvent_of_not_admitted hlive hgie _

/-- Settles O57: each clause clears one conjunct of the handler's enabled condition or of the event's admission. -/
theorem disabledAgentsHaveNoStep : Obligations.DisabledAgentsHaveNoStep := by
  intro s b hlive
  refine ⟨fun hgie i hi => exec_of_gie_clear hlive hgie hi, fun hempty => ?_, fun hdisarmed => ?_, fun hbusy => ?_,
    fun hnone => ?_, fun hfree => ?_⟩
  · exact exec_evRx_of_disabled hlive (by simp [State.rxiEnabled, hempty])
  · exact exec_evTxReady_of_disabled hlive (by simp [State.txiEnabled, hdisarmed])
  · exact exec_evTxReady_of_disabled hlive (by simp [State.txiEnabled, hbusy])
  · exact exec_evTick_of_disabled hlive (by simp [State.tmiEnabled, hnone])
  · exact admitEvent_of_not_admitted hlive (by simp [hfree]) _

end Sys2Proof.Proofs
end

section
/-! PROOFS. 70_reset_and_hazards.md R341: the end of the hardware init (O51). -/

namespace Sys2Proof.Proofs

open Sys2Proof Sys2Proof.Machine

/-- R341: `INIT_DONE` is the write of `gie` under the shared admission rule; the slot plays no part in it. -/
theorem exec_initDone (s : State) : exec .initDone s = admitOp s fun _ => .next { s with gie := true } := rfl

/-- Settles O51: in the slot that admits it (R191), `INIT_DONE` does its one write and nothing more. -/
theorem initDoneEnablesInterrupts : Obligations.InitDoneEnablesInterrupts := by
  intro s slot h
  rw [exec_initDone, admitOp_of_admits h]

end Sys2Proof.Proofs
end

section
/-! PROOFS. 70_reset_and_hazards.md R330: power-on reset (O7). -/

namespace Sys2Proof.Proofs

open Sys2Proof Sys2Proof.Machine

/-- Settles O7: `State.reset` is concrete, and each valued row of the table of R66 is one of its fields as written. -/
theorem resetState : Obligations.ResetState :=
  ⟨rfl, rfl, rfl, rfl, -- `rx`, `tx`
    rfl, rfl, rfl, -- `dup`, `fc`, `txie`
    rfl, rfl, rfl, -- `pe`, `laser_out`, `out`
    rfl, rfl, rfl, -- `uart`
    rfl, rfl, rfl, -- `main`, `tick_pending`, `gie`
    rfl, rfl, rfl⟩ -- `faults`, `trace`, `refused`

end Sys2Proof.Proofs
end
